-- ==== Sys2Proof/Word.lean ====
section
/-! DEFINITION. The words of the block: register images, addresses, floats, command and result words. -/

namespace Sys2Proof

/-- A Register: "an opaque 16-bit unsigned value" (10_state.md R25). -/
abbrev Register := BitVec 16

/-- The 32-bit pattern of an IEEE 754 binary32 value (00_scope.md R7, decision D1). -/
abbrev FloatBits := BitVec 32

/-- An 8-bit register address; the unit of addressing is the register (20_memory.md R40). -/
abbrev RegAddr := BitVec 8

/-- A 7-bit device address (10_state.md R33). -/
abbrev DevAddr := BitVec 7

/-- The command word `CMD[34:0]` (30_encoding.md R60). -/
abbrev CmdWord := BitVec 35

/-- The result word `RES[33:0]` (30_encoding.md R66). -/
abbrev ResWord := BitVec 34

end Sys2Proof
end

