-- ==== Sys2Proof/Config.lean ====
section
/-! DEFINITION. What an implementation fixes and what the spec leaves open: uninterpreted constants (00_scope.md R7,
92_eei_decisions.md). Nothing can be proved of their values. -/

namespace Sys2Proof.Config

/-- `TENC_OOR`: the result of TENC for a truncated value outside -32768 .. 32767. OPEN, under no law
(40_temperature_codec.md R85, decision D3). -/
opaque tencOor : Int → Register

/-- `TENC_SPECIAL`: the result of TENC for NaN and the infinities. OPEN, a function of the input alone, under no law
(40_temperature_codec.md R86, decision D4). -/
opaque tencSpecial : FloatBits → Register

/-- The addresses of the four address-pin strappings, which the source does not give (10_state.md R33, decision D19). -/
opaque devAddrStrap : Fin 4 → DevAddr

/-- `DEVADDR_SET`: the four device addresses (00_scope.md R7). -/
def devAddrSet : List DevAddr := [devAddrStrap 0, devAddrStrap 1, devAddrStrap 2, devAddrStrap 3]

/-- `DEVICE_ID_EXPECTED`: OPEN, not enforced by the core (10_state.md R31, decision D28). -/
opaque deviceIdExpected : Register

/-- The places of the command interface that hold no defined value at some moments. -/
inductive OpenPort
  | status | regOut | fOut | recOut | eqOut | resValue
  deriving DecidableEq, Repr

/-- The free values of the output ports: an output port "holds no defined value otherwise" (10_state.md R22), after
reset it is unspecified (R37), and the value part of a failed result is unspecified (30_encoding.md R66). Applied to the
model's counter `epoch`; nothing constrains it. -/
opaque freePort : OpenPort → Nat → BitVec 32

end Sys2Proof.Config
end

