-- ==== Sys2Proof/Syntax.lean ====
section
/-! DEFINITION. The field variants, the Configuration record, the overrides, the six operations and the eight Facade
pseudo-operations. -/

namespace Sys2Proof

/-- `temperatureConversionMode`: three variants, no fourth (10_state.md R29, R34). -/
inductive Mode
  | continuous | shutdown | oneshot
  deriving DecidableEq, Repr

/-- `conversionCycleTime`: eight settings `CCT_0` .. `CCT_7` (10_state.md R29). -/
inductive CycleTime
  | cct0 | cct1 | cct2 | cct3 | cct4 | cct5 | cct6 | cct7
  deriving DecidableEq, Repr

/-- `averages`: 1, 8, 32 or 64 samples (10_state.md R29). -/
inductive Averages
  | avg1 | avg8 | avg32 | avg64
  deriving DecidableEq, Repr

/-- `thermalAlertMode` (10_state.md R29). -/
inductive ThermalAlert
  | alert | therm
  deriving DecidableEq, Repr

/-- `alertPolarity` (10_state.md R29). -/
inductive Polarity
  | activeLow | activeHigh
  deriving DecidableEq, Repr

/-- `dataReadyAlertSelection` (10_state.md R29). -/
inductive DataReadySelect
  | alertStatus | dataReady
  deriving DecidableEq, Repr

/-- The decoded form of the configuration register: four read-only status flags and six writable fields
(10_state.md R34). -/
structure Configuration where
  highAlertFlag : Bool
  lowAlertFlag : Bool
  dataReadyFlag : Bool
  eepromBusyFlag : Bool
  mode : Mode
  conv : CycleTime
  avg : Averages
  therm : ThermalAlert
  pol : Polarity
  dr : DataReadySelect
  deriving DecidableEq, Repr

/-- The operand of CMRG: one optional override per writable field, `none` for "leave as-is"
(30_encoding.md R64, 42_merge_engine.md R105). -/
structure Overrides where
  mode : Option Mode
  conv : Option CycleTime
  avg : Option Averages
  therm : Option ThermalAlert
  pol : Option Polarity
  dr : Option DataReadySelect
  deriving DecidableEq, Repr

/-- The six operations, one constructor per row of the opcode table (00_scope.md R11, 30_encoding.md R63). -/
inductive Instr
  | tdec (regIn : Register)
  | tenc (fIn : FloatBits)
  | cdec (regIn : Register)
  | cenc (recIn : Configuration)
  | cmrg (devaddr : DevAddr) (ovr : Overrides)
  | ceq (recIn recIn2 : Configuration)
  deriving DecidableEq, Repr

/-- The Driver Facade's operations; they have no command encoding (30_encoding.md R70, 43_facade_boundary.md). -/
inductive Pseudo
  | getTemp
  | getId
  | getCfgRaw
  | getCfg
  | setCfg (ovr : Overrides)
  | setHi (x : FloatBits)
  | setLo (x : FloatBits)
  | setAddr (a : DevAddr)
  deriving DecidableEq, Repr

end Sys2Proof
end

