-- ==== Sys2Proof/WellFormed.lean ====
section
/-! DEFINITION. Which command words and which Facade requests are admitted. A term of `Instr` needs no check: its types
have no value for what 30_encoding.md R67 excludes ("unrepresentable after decode", 41_configuration_codec.md R99), so the
checks are on the words that spell one. -/

namespace Sys2Proof.WellFormed

/-- The operation select is one of the six assigned codes (30_encoding.md R63, R67). -/
def opAssigned (w : CmdWord) : Bool := w.extractLsb' 32 3 != 0b110#3 && w.extractLsb' 32 3 != 0b111#3

/-- CENC: the record's mode code is not `0b10` (30_encoding.md R67). -/
def cencRecord (w : CmdWord) : Bool := !(w.extractLsb' 32 3 == 0b011#3 && w.extractLsb' 10 2 == 0b10#2)

/-- CEQ: neither record's mode code is `0b10` (30_encoding.md R67). -/
def ceqRecords (w : CmdWord) : Bool :=
  !(w.extractLsb' 32 3 == 0b101#3 && (w.extractLsb' 26 2 == 0b10#2 || w.extractLsb' 10 2 == 0b10#2))

/-- CMRG: a mode override that is present has not the code `0b10` (30_encoding.md R67). -/
def cmrgMode (w : CmdWord) : Bool :=
  !(w.extractLsb' 32 3 == 0b100#3 && w.extractLsb' 21 1 == 1#1 && w.extractLsb' 10 2 == 0b10#2)

/-- The command words that spell an operation (30_encoding.md R67). -/
def admits (w : CmdWord) : Bool := opAssigned w && cencRecord w && ceqRecords w && cmrgMode w

/-- SETADDR's operand is "a member of `DEVADDR_SET`" (43_facade_boundary.md R132); every other request is admitted. -/
def pseudo : Pseudo → Bool
  | .getTemp => true
  | .getId => true
  | .getCfgRaw => true
  | .getCfg => true
  | .setCfg _ => true
  | .setHi _ => true
  | .setLo _ => true
  | .setAddr a => Config.devAddrSet.contains a

end Sys2Proof.WellFormed
end

