-- ==== Sys2Proof/Decode.lean ====
section
/-! DEFINITION. From words to operations and back: signed numbers (00_scope.md R8), the bit patterns of the field
variants (10_state.md R29), the record packing (30_encoding.md R65), the command word's fields (R61, R62, R64), the
decoder (R63, R67) and the encoder. -/

namespace Sys2Proof

/-- A field's pattern shifted into its place in a word, all other bits zero: "each field's encoded value already occupies its
correct bit position and all other bits are zero" (41_configuration_codec.md R93). -/
def field {w : Nat} (n k : Nat) (b : BitVec w) : BitVec n := b.setWidth n <<< k

/-! ### Signed numbers -/

/-- `sint16`: 16 bits read as a two's-complement integer (00_scope.md R8). -/
abbrev sint16 (r : Register) : Int := r.toInt

/-- `tc16`: the 16-bit pattern congruent to an integer modulo 65536 (00_scope.md R8). -/
abbrev tc16 (n : Int) : Register := BitVec.ofInt 16 n

/-! ### The bit patterns of the variants -/

/-- The mode's code (10_state.md R29, decision D6). -/
def Mode.bits : Mode → BitVec 2
  | .continuous => 0b00#2
  | .shutdown => 0b01#2
  | .oneshot => 0b11#2

/-- The mode a record or an override spells; `0b10` spells none (30_encoding.md R65, R67). -/
def Mode.ofBits? (b : BitVec 2) : Option Mode :=
  if b = 0b00#2 then some .continuous else if b = 0b01#2 then some .shutdown
  else if b = 0b11#2 then some .oneshot else none

/-- `CCT_n` is the pattern n (10_state.md R29). -/
def CycleTime.bits : CycleTime → BitVec 3
  | .cct0 => 0#3
  | .cct1 => 1#3
  | .cct2 => 2#3
  | .cct3 => 3#3
  | .cct4 => 4#3
  | .cct5 => 5#3
  | .cct6 => 6#3
  | .cct7 => 7#3

/-- `CCT_(b)` (41_configuration_codec.md R90). -/
def CycleTime.ofBits (b : BitVec 3) : CycleTime :=
  if b = 0#3 then .cct0 else if b = 1#3 then .cct1 else if b = 2#3 then .cct2 else if b = 3#3 then .cct3
  else if b = 4#3 then .cct4 else if b = 5#3 then .cct5 else if b = 6#3 then .cct6 else .cct7

/-- The averages' codes, in the order of the source's list (10_state.md R29, decision D6). -/
def Averages.bits : Averages → BitVec 2
  | .avg1 => 0b00#2
  | .avg8 => 0b01#2
  | .avg32 => 0b10#2
  | .avg64 => 0b11#2

/-- `avgOf` (41_configuration_codec.md R90). -/
def Averages.ofBits (b : BitVec 2) : Averages :=
  if b = 0b00#2 then .avg1 else if b = 0b01#2 then .avg8 else if b = 0b10#2 then .avg32 else .avg64

/-- `THERM` is 1 (10_state.md R29). -/
def ThermalAlert.bits : ThermalAlert → BitVec 1
  | .alert => 0#1
  | .therm => 1#1

def ThermalAlert.ofBits (b : BitVec 1) : ThermalAlert := if b = 1#1 then .therm else .alert

/-- `ACTIVE_HIGH` is 1 (10_state.md R29). -/
def Polarity.bits : Polarity → BitVec 1
  | .activeLow => 0#1
  | .activeHigh => 1#1

def Polarity.ofBits (b : BitVec 1) : Polarity := if b = 1#1 then .activeHigh else .activeLow

/-- `DATA_READY` is 1 (10_state.md R29). -/
def DataReadySelect.bits : DataReadySelect → BitVec 1
  | .alertStatus => 0#1
  | .dataReady => 1#1

def DataReadySelect.ofBits (b : BitVec 1) : DataReadySelect := if b = 1#1 then .dataReady else .alertStatus

/-! ### The record packing -/

/-- A Configuration on 16 wires, at the positions of `CFGR`, `[1:0]` output as `0b00` (30_encoding.md R65). -/
def packRecord (c : Configuration) : BitVec 16 :=
  field 16 15 (BitVec.ofBool c.highAlertFlag) ||| field 16 14 (BitVec.ofBool c.lowAlertFlag) |||
    field 16 13 (BitVec.ofBool c.dataReadyFlag) ||| field 16 12 (BitVec.ofBool c.eepromBusyFlag) |||
    field 16 10 c.mode.bits ||| field 16 7 c.conv.bits ||| field 16 5 c.avg.bits ||| field 16 4 c.therm.bits |||
    field 16 3 c.pol.bits ||| field 16 2 c.dr.bits

/-- The Configuration a record word spells: mode code `0b10` is "not a Configuration", `[1:0]` are ignored
(30_encoding.md R65). -/
def unpackRecord (w : BitVec 16) : Option Configuration :=
  match Mode.ofBits? (w.extractLsb' 10 2) with
  | none => none
  | some m => some {
      highAlertFlag := w.getLsbD 15, lowAlertFlag := w.getLsbD 14, dataReadyFlag := w.getLsbD 13,
      eepromBusyFlag := w.getLsbD 12, mode := m,
      conv := CycleTime.ofBits (w.extractLsb' 7 3), avg := Averages.ofBits (w.extractLsb' 5 2),
      therm := ThermalAlert.ofBits (w.extractLsb' 4 1), pol := Polarity.ofBits (w.extractLsb' 3 1),
      dr := DataReadySelect.ofBits (w.extractLsb' 2 1) }

/-! ### The fields of the command word: the input ports of 10_state.md R22 -/

/-- The port `op`, `CMD[34:32]` (30_encoding.md R61). -/
def CmdWord.op (w : CmdWord) : BitVec 3 := w.extractLsb' 32 3

/-- The port `reg_in`, format REG16 (30_encoding.md R62). -/
def CmdWord.regIn (w : CmdWord) : Register := w.extractLsb' 0 16

/-- The port `f_in`, format F32 (30_encoding.md R62). -/
def CmdWord.fIn (w : CmdWord) : FloatBits := w.extractLsb' 0 32

/-- The port `rec_in` of CENC, format CFG16 (30_encoding.md R62). -/
def CmdWord.recIn (w : CmdWord) : BitVec 16 := w.extractLsb' 0 16

/-- The port `rec_in` of CEQ, format RR (30_encoding.md R62). -/
def CmdWord.recInHigh (w : CmdWord) : BitVec 16 := w.extractLsb' 16 16

/-- The port `rec_in2` of CEQ, format RR (30_encoding.md R62). -/
def CmdWord.recIn2 (w : CmdWord) : BitVec 16 := w.extractLsb' 0 16

/-- The port `devaddr`, format M (30_encoding.md R62). -/
def CmdWord.devaddr (w : CmdWord) : DevAddr := w.extractLsb' 24 7

/-- The port `ovr_present`, format M (30_encoding.md R64). -/
def CmdWord.ovrPresent (w : CmdWord) : BitVec 6 := w.extractLsb' 16 6

/-- The port `ovr_value`, command bits `[11:2]` (30_encoding.md R62). -/
def CmdWord.ovrValue (w : CmdWord) : BitVec 10 := w.extractLsb' 2 10

/-- Override `i` is `Some(v)` when its presence bit is 1 and `None` when it is 0, its value bits then ignored
(30_encoding.md R64). -/
def present {α : Type} (p : Bool) (v : α) : Option α := if p then some v else none

/-- The six overrides a command word spells; none if a present mode override has the code `0b10`
(30_encoding.md R64, R67). `ovr_value` starts at command bit 2, so the mode stands at its bits `[9:8]`. -/
def overridesOf (p : BitVec 6) (v : BitVec 10) : Option Overrides :=
  let rest (m : Option Mode) : Overrides := {
    mode := m
    conv := present (p.getLsbD 4) (CycleTime.ofBits (v.extractLsb' 5 3))
    avg := present (p.getLsbD 3) (Averages.ofBits (v.extractLsb' 3 2))
    therm := present (p.getLsbD 2) (ThermalAlert.ofBits (v.extractLsb' 2 1))
    pol := present (p.getLsbD 1) (Polarity.ofBits (v.extractLsb' 1 1))
    dr := present (p.getLsbD 0) (DataReadySelect.ofBits (v.extractLsb' 0 1)) }
  if p.getLsbD 5 then
    match Mode.ofBits? (v.extractLsb' 8 2) with
    | none => none
    | some m => some (rest (some m))
  else some (rest none)

/-! ### The decoder -/

/-- Why a command word spells no operation (30_encoding.md R67). -/
inductive DecodeError
  | reservedOp
  | reservedRecord
  | reservedModeOverride
  deriving DecidableEq, Repr

/-- The operation a command word spells (30_encoding.md R63), or which row of R67 it falls under. -/
def decode (w : CmdWord) : Except DecodeError Instr :=
  if w.op = 0b000#3 then .ok (.tdec w.regIn)
  else if w.op = 0b001#3 then .ok (.tenc w.fIn)
  else if w.op = 0b010#3 then .ok (.cdec w.regIn)
  else if w.op = 0b011#3 then
    match unpackRecord w.recIn with
    | some c => .ok (.cenc c)
    | none => .error .reservedRecord
  else if w.op = 0b100#3 then
    match overridesOf w.ovrPresent w.ovrValue with
    | some o => .ok (.cmrg w.devaddr o)
    | none => .error .reservedModeOverride
  else if w.op = 0b101#3 then
    match unpackRecord w.recInHigh, unpackRecord w.recIn2 with
    | some a, some b => .ok (.ceq a b)
    | _, _ => .error .reservedRecord
  else .error .reservedOp

/-! ### The encoder -/

/-- The presence mask of the overrides (30_encoding.md R64). -/
def Overrides.presentBits (o : Overrides) : BitVec 6 :=
  field 6 5 (BitVec.ofBool o.mode.isSome) ||| field 6 4 (BitVec.ofBool o.conv.isSome) |||
    field 6 3 (BitVec.ofBool o.avg.isSome) ||| field 6 2 (BitVec.ofBool o.therm.isSome) |||
    field 6 1 (BitVec.ofBool o.pol.isSome) ||| field 6 0 (BitVec.ofBool o.dr.isSome)

/-- The override values at the positions of `CFGR[11:2]`, an absent field's driven 0 (30_encoding.md R62). -/
def Overrides.valueBits (o : Overrides) : BitVec 10 :=
  field 10 8 ((o.mode.map Mode.bits).getD 0) ||| field 10 5 ((o.conv.map CycleTime.bits).getD 0) |||
    field 10 3 ((o.avg.map Averages.bits).getD 0) ||| field 10 2 ((o.therm.map ThermalAlert.bits).getD 0) |||
    field 10 1 ((o.pol.map Polarity.bits).getD 0) ||| field 10 0 ((o.dr.map DataReadySelect.bits).getD 0)

/-- The 32-bit operand of a command, ignored bits driven 0 (30_encoding.md R62). -/
def Instr.operand : Instr → BitVec 32
  | .tdec r => field 32 0 r
  | .tenc f => f
  | .cdec r => field 32 0 r
  | .cenc c => field 32 0 (packRecord c)
  | .cmrg d o => field 32 24 d ||| field 32 16 o.presentBits ||| field 32 2 o.valueBits
  | .ceq a b => field 32 16 (packRecord a) ||| field 32 0 (packRecord b)

/-- The operation-select code (30_encoding.md R63). -/
def Instr.opCode : Instr → BitVec 3
  | .tdec _ => 0b000#3
  | .tenc _ => 0b001#3
  | .cdec _ => 0b010#3
  | .cenc _ => 0b011#3
  | .cmrg _ _ => 0b100#3
  | .ceq _ _ => 0b101#3

/-- The command word of an operation: `op : operand` (30_encoding.md R61). -/
def encode (i : Instr) : CmdWord := field 35 32 i.opCode ||| field 35 0 i.operand

/-- The instruction the decoder reads from a number whose bits are numbered as the opcode table numbers them. A command
word is one word of 35 bits and is no byte string (30_encoding.md R60): a number with a bit set above bit 34 spells none. -/
def decodeTableWord (nbits w : Nat) : Option Instr :=
  let bits := w % 2 ^ nbits
  if bits < 2 ^ 35 then
    match decode (BitVec.ofNat 35 bits) with
    | .ok i => some i
    | .error _ => none
  else none

end Sys2Proof
end

