-- ==== Sys2Proof/Machine/State.lean ====
section
/-! DEFINITION. What the machine holds: the merge engine's registers, the command interface's results, the Facade's
device address, the transport port and its event history, the transport collaborator, and what the outside presents. -/

namespace Sys2Proof.Machine

/-- Where the merge engine is in a CMRG (10_state.md R21). -/
inductive Phase
  | idle | rdWait | wrWait
  deriving DecidableEq, Repr

/-- A transport request `(kind, devaddr, regaddr, wdata)`, `wdata` only for a write (30_encoding.md R71). -/
inductive Request
  | rd (devaddr : DevAddr) (regaddr : RegAddr)
  | wr (devaddr : DevAddr) (regaddr : RegAddr) (wdata : Register)
  deriving DecidableEq, Repr

/-- What a transport call yields: the register read or the echo, or a failure (20_memory.md R41). -/
inductive Answer
  | ok (data : Register)
  | fail
  deriving DecidableEq, Repr

/-- One entry of the event history: a transport call and its outcome (10_state.md R36). -/
structure Event where
  req : Request
  outcome : Answer
  deriving DecidableEq, Repr

/-- The outstanding transport call and how many steps the transport still takes before it can answer
(20_memory.md R50, 42_merge_engine.md R117). -/
structure Call where
  req : Request
  left : Nat
  deriving DecidableEq, Repr

/-- The result of an operation of CORE: a value, or one of the two failure kinds with no payload
(00_scope.md R11, 60_exceptions.md R140, R144). -/
inductive Result
  | float (fOut : FloatBits)
  | reg (regOut : Register)
  | cfg (recOut : Configuration)
  | eq (eqOut : Bool)
  | noOpRequested
  | transportFailure
  deriving DecidableEq, Repr

/-- The result of a Facade operation (43_facade_boundary.md R126 to R133); SETADDR returns no value. -/
inductive FacadeResult
  | temperature (x : FloatBits)
  | register (r : Register)
  | configuration (c : Configuration)
  | readdressed
  | noOpRequested
  | transportFailure
  deriving DecidableEq, Repr

/-- Which transport is bound to the port: the external collaborator, whose answers are an oracle's (20_memory.md R41), or
the reference stub (R54). -/
inductive Binding
  | external | stub
  deriving DecidableEq, Repr

/-- What the requester and the environment present at a step (00_scope.md R12). -/
inductive Input
  /-- the requester presents a command word to CORE (30_encoding.md R60) -/
  | command (w : CmdWord)
  /-- the requester calls a Facade operation (30_encoding.md R70) -/
  | pseudo (p : Pseudo)
  /-- nothing is presented in this step -/
  | quiet
  /-- the block is reset (70_reset_and_hazards.md R160) -/
  | reset
  /-- the owner of the driver changes DEVADDR at once, in flight or not (70_reset_and_hazards.md R163) -/
  | mutateDevaddr (a : DevAddr)
  /-- the device, or another bus master, changes a register behind the transport (10_state.md R38, 20_memory.md R49);
  seen through the reference stub, whose store it changes, and with the external transport in its answers alone (log 11) -/
  | deviceChange (a : RegAddr) (v : Register)
  deriving DecidableEq, Repr

/-- One 16-bit register at its register address: the smallest addressable unit (20_memory.md R40). -/
abbrev RegCell := Nat × Register

/-- A register space as a list of cells, addresses strictly rising, no cell holding what an unlisted address reads as. -/
abbrev Memory := List RegCell

/-- Everything the spec gives the machine, as INVENTORY.md lists it. -/
structure State where
  /-- `PHASE` (10_state.md R21) -/
  phase : Phase
  /-- `OVR`: the overrides of the CMRG in progress (10_state.md R21) -/
  ovr : Overrides
  /-- `CUR`: the raw register the transport read returned (10_state.md R21) -/
  cur : Register
  /-- `CAND`: the encoded candidate (10_state.md R21) -/
  cand : Register
  /-- the device address latched with the command (42_merge_engine.md R117) -/
  latched : DevAddr
  /-- the result the last completed operation left at the output ports; `none` while no operation has completed or one
  is in flight (10_state.md R22, R37) -/
  result : Option Result
  /-- `DEVADDR`, the Facade's state (10_state.md R33) -/
  devaddr : DevAddr
  /-- the Facade operation in flight -/
  facade : Option Pseudo
  /-- what the last Facade operation returned -/
  facadeResult : Option FacadeResult
  /-- the transport port: the one outstanding call (20_memory.md R50) -/
  call : Option Call
  /-- the event history, oldest first (10_state.md R36) -/
  history : List Event
  /-- which transport is bound -/
  binding : Binding
  /-- the external transport's answers to come, one per call; an empty list: it has not answered (20_memory.md R41) -/
  answers : List Answer
  /-- how many steps each call to come takes before it can be answered, one entry per call; an empty list: none
  (70_reset_and_hazards.md R171) -/
  latency : List Nat
  /-- the reference stub's store (20_memory.md R54) -/
  store : Memory
  /-- the reference stub's script, `true` for a failing call; an empty list: no failure (20_memory.md R54) -/
  failScript : List Bool
  /-- what is presented next, first to last -/
  inputs : List Input
  /-- THE MODEL'S OWN counter, to which the free values of the ports are applied; no state of the spec's -/
  epoch : Nat
  deriving DecidableEq, Repr

/-- Reasons to stop with a fault: NONE. "A failure is a value, not a transfer of control" (60_exceptions.md R140) and
"no operation is fatal" (R147): nothing on this block faults. Safe. -/
inductive Fault
  deriving DecidableEq, Repr

/-- Reasons to refuse. Each is safe: the model gives no meaning where the spec gives none. -/
inductive Refusal
  /-- an instruction with no meaning yet, by mnemonic; raised by no arm of `exec`. Safe. -/
  | notModelled (mnemonic : String)
  /-- raised by the fetch of a command word that spells no operation (30_encoding.md R67, decision D18). Safe. -/
  | reservedCommand (why : DecodeError)
  /-- raised by SETADDR with an address outside `DEVADDR_SET` (43_facade_boundary.md R132, U7). Safe. -/
  | devaddrOutsideSet
  /-- raised when DEVADDR is changed while an operation is in flight (70_reset_and_hazards.md R163, U6). Safe. -/
  | devaddrChangedInFlight
  deriving DecidableEq, Repr

/-- What the step takes up: an operation of CORE, a Facade operation, a step in which nothing is taken up, or a
refusal. -/
inductive Fetched
  | run (i : Instr) (s : State)
  | pseudo (p : Pseudo) (s : State)
  | proceed (s : State)
  | refuse (r : Refusal)
  deriving DecidableEq, Repr

/-- No override: what `OVR` holds after reset in this model (log 1). -/
def noOverrides : Overrides :=
  { mode := none, conv := none, avg := none, therm := none, pol := none, dr := none }

/-- The machine right after reset (10_state.md R37, 70_reset_and_hazards.md R160). DESIGN CHOICE, unsafe: `ovr`, `cur`,
`cand`, `latched` (log 1), `devaddr` (log 3), the transport with nothing listed (logs 4, 5). -/
def State.reset : State where
  phase := .idle
  ovr := noOverrides
  cur := 0
  cand := 0
  latched := 0
  result := none
  devaddr := Config.devAddrStrap 0
  facade := none
  facadeResult := none
  call := none
  history := []
  binding := .external
  answers := []
  latency := []
  store := []
  failScript := []
  inputs := []
  epoch := 0

end Sys2Proof.Machine
end

