-- ==== Sys2Proof/Machine/Ops.lean ====
section
/-! DEFINITION. The operations shared by the meanings: the stub's register space, the transport port, acceptance and
completion of an operation. On this block "taking an exception" is completing with a failure kind: `State.complete`
(60_exceptions.md R146); there is no return from one (R147). -/

namespace Sys2Proof.Machine

/-! ### A register space -/

/-- What an unlisted register of the stub reads as (log 5). DESIGN CHOICE: the spec gives no value. -/
def Memory.unlisted : Register := 0

/-- The register at an address. -/
def Memory.read : Memory → Nat → Register
  | [], _ => unlisted
  | (b, v) :: m, a => if a = b then v else Memory.read m a

/-- A cell put in front of a list, left out if it holds what an unlisted register reads as. -/
def Memory.put (a : Nat) (v : Register) (m : Memory) : Memory := if v = unlisted then m else (a, v) :: m

/-- Write one register, keeping the canonical form. -/
def Memory.write : Memory → Nat → Register → Memory
  | [], a, v => Memory.put a v []
  | (b, u) :: m, a, v =>
    if a < b then Memory.put a v ((b, u) :: m)
    else if a = b then Memory.put a v m
    else (b, u) :: Memory.write m a v

/-- Every address of a list is above `a`. -/
def Memory.above (a : Nat) (m : Memory) : Bool := m.all fun c => decide (a < c.1)

/-- The canonical form: addresses strictly rising and within the 8-bit register address space, no cell holding what an
unlisted register reads as. -/
def Memory.wf : Memory → Bool
  | [] => true
  | (a, v) :: m => decide (a < 256) && v != unlisted && Memory.above a m && Memory.wf m

/-! ### The transport port -/

/-- Issue a transport call (20_memory.md R41, 30_encoding.md R71): it is outstanding until the transport answers, after
as many steps as the transport takes. The call's delay is taken from `latency` here, at issue; its answer or its entry of
the script is not (DESIGN CHOICE, logs 19 and 20). -/
def State.issue (req : Request) (s : State) : State :=
  { s with call := some { req := req, left := s.latency.headD 0 }, latency := s.latency.tail }

/-- The stub's answer to a call that succeeds (20_memory.md R54). -/
def stubAnswer (m : Memory) : Request → Answer
  | .rd _ a => .ok (m.read a.toNat)
  | .wr _ _ v => .ok v

/-- The stub's store after a call that succeeds (20_memory.md R54). -/
def stubStore (m : Memory) : Request → Memory
  | .rd _ _ => m
  | .wr _ a v => m.write a.toNat v

/-- The outstanding call `req` has been answered: the port is free and the event is recorded (10_state.md R36). -/
def State.answered (req : Request) (a : Answer) (s : State) : State :=
  { s with call := none, history := s.history ++ [{ req := req, outcome := a }] }

/-- The transport's answer to a call, if it gives one now, and the machine after it: the external collaborator's next
answer (20_memory.md R41, R43), or the stub's (R54). R54's stub has no delay: that a delayed call takes effect when it is
served, the script's entry taken and the store read or written then and not at issue, is a DESIGN CHOICE (log 19). -/
def State.serve (req : Request) (s : State) : Option (Answer × State) :=
  match s.binding with
  | .external =>
    match s.answers with
    | [] => none
    | a :: rest => some (a, State.answered req a { s with answers := rest })
  | .stub =>
    if s.failScript.headD false then
      some (.fail, State.answered req .fail { s with failScript := s.failScript.tail })
    else
      let a := stubAnswer s.store req
      some (a, State.answered req a { s with store := stubStore s.store req, failScript := s.failScript.tail })

/-- The answer to the outstanding call, if there is one and the transport is ready with it. A call with a delay takes
effect here, when it is answered, on the stub too (DESIGN CHOICE, log 19): a change of the device while a read waits is
seen by that read. -/
def State.respond (s : State) : Option (Answer × State) :=
  match s.call with
  | none => none
  | some c => if c.left = 0 then s.serve c.req else none

/-- One step passes for the outstanding call. -/
def State.countdown (s : State) : State :=
  match s.call with
  | none => s
  | some c => { s with call := some { c with left := c.left - 1 } }

/-! ### Accepting and completing an operation -/

/-- No operation is in flight: the engine is in `IDLE` (42_merge_engine.md R117) and no Facade operation waits
(70_reset_and_hazards.md R162). -/
def State.ready (s : State) : Bool := decide (s.phase = .idle) && s.facade.isNone

/-- An operation presented while one is in flight is not accepted: it waits, and nothing happens
(70_reset_and_hazards.md R162, decision D17). -/
def State.whenReady (s : State) (go : State) : Host.Outcome State Fault Refusal :=
  if s.ready then .next go else .next s

/-- The model's own counter moves on: the ports that hold no defined value may hold another. -/
def State.tick (s : State) : State := { s with epoch := s.epoch + 1 }

/-- The result of a SETCFG is that of the CMRG it delegates to (43_facade_boundary.md R130): a register or a failure
kind. A CMRG ends with no other result. -/
def FacadeResult.ofCore : Result → Option FacadeResult
  | .reg r => some (.register r)
  | .noOpRequested => some .noOpRequested
  | .transportFailure => some .transportFailure
  | .float _ => none
  | .cfg _ => none
  | .eq _ => none

/-- An operation of CORE ends with a result, a value or a failure kind: `PHASE` is `IDLE`, nothing is saved, no control
goes anywhere (60_exceptions.md R146); if the Facade delegated it, its SETCFG ends with the same result (R130). -/
def State.complete (r : Result) (s : State) : State :=
  let t := { s with result := some r, phase := .idle, epoch := s.epoch + 1 }
  match s.facade with
  | some (.setCfg _) => { t with facade := none, facadeResult := FacadeResult.ofCore r }
  | _ => t

/-- The device, or another bus master, changes a register: the stub's store changes (10_state.md R38). With the
external transport the device is outside the model, and the change shows only in later answers (log 11). -/
def State.changeDevice (a : RegAddr) (v : Register) (s : State) : State :=
  { s with store := s.store.write a.toNat v }

/-- Reset of the block (70_reset_and_hazards.md R160): the operation in flight is abandoned and gives no result, the
outputs are unspecified, the history is empty. The device, the transport and the Facade's `DEVADDR` are not touched.
The transient registers take the values of `State.reset` (log 1). DESIGN CHOICE (log 20): the abandoned call keeps its
entry of the stub's script, or of the external answers, for the next call; its delay was used up when it was issued. -/
def State.resetBlock (s : State) : State :=
  { s with phase := .idle, ovr := noOverrides, cur := 0, cand := 0, latched := 0, result := none, facade := none,
           call := none, history := [], epoch := s.epoch + 1 }

end Sys2Proof.Machine
end

