-- ==== Sys2Proof/Machine/Operands.lean ====
section
/-! DEFINITION. The operand of CMRG and the register images: how many overrides there are, what they make of a
Configuration, the register addresses and the masks of `CFGR`. -/

namespace Sys2Proof.Machine

/-! ### The register address map (10_state.md R26) -/

/-- `TEMP`. -/
def addrTemp : RegAddr := 0x00
/-- `CFGR`. -/
def addrCfg : RegAddr := 0x01
/-- `HIGH_LIMIT`. -/
def addrHigh : RegAddr := 0x02
/-- `LOW_LIMIT`. -/
def addrLow : RegAddr := 0x03
/-- `DEVICE_ID`. -/
def addrId : RegAddr := 0x0F

/-! ### The masks of the `CFGR` image (30_encoding.md R72) -/

def maskHi : Register := 0x8000
def maskLo : Register := 0x4000
def maskDrdy : Register := 0x2000
def maskEeb : Register := 0x1000
def maskFlags : Register := 0xF000
def maskMode : Register := 0x0C00
def modeAlias : Register := 0x0800
def maskConv : Register := 0x0380
def maskAvg : Register := 0x0060
def maskTherm : Register := 0x0010
def maskPol : Register := 0x0008
def maskDr : Register := 0x0004
def maskWritable : Register := 0x0FFC
def maskReserved : Register := 0x0003

/-- The Configuration with all flags false that the six values of a complete set of overrides are put into: the fast
path's candidate is `o.merge blankConfiguration` (42_merge_engine.md R107, decision D23); its fields are all replaced. -/
def blankConfiguration : Configuration where
  highAlertFlag := false
  lowAlertFlag := false
  dataReadyFlag := false
  eepromBusyFlag := false
  mode := .continuous
  conv := .cct0
  avg := .avg1
  therm := .alert
  pol := .activeLow
  dr := .alertStatus

end Sys2Proof.Machine

namespace Sys2Proof

/-! ### The overrides -/

/-- `popcount(ovr_present)` (42_merge_engine.md R105). -/
def Overrides.count (o : Overrides) : Nat :=
  o.mode.isSome.toNat + o.conv.isSome.toNat + o.avg.isSome.toNat + o.therm.isSome.toNat + o.pol.isSome.toNat +
    o.dr.isSome.toNat

/-- The merge: start from a Configuration and replace exactly the fields an override is supplied for
(42_merge_engine.md R109). -/
def Overrides.merge (o : Overrides) (c : Configuration) : Configuration :=
  { c with
    mode := o.mode.getD c.mode, conv := o.conv.getD c.conv, avg := o.avg.getD c.avg,
    therm := o.therm.getD c.therm, pol := o.pol.getD c.pol, dr := o.dr.getD c.dr }

end Sys2Proof
end

