-- ==== Sys2Proof/Machine/Flags.lean ====
section
/-! DEFINITION. The flags and codes: the block has no condition codes (10_state.md R24); the four status flags of the
configuration register are read from its image, and a result shows at the output ports and in the result word
(10_state.md R22, 30_encoding.md R66). -/

namespace Sys2Proof.Machine

/-! ### The status flags of a `CFGR` image (10_state.md R24) -/

def highAlertOf (r : Register) : Bool := r.getLsbD 15
def lowAlertOf (r : Register) : Bool := r.getLsbD 14
def dataReadyOf (r : Register) : Bool := r.getLsbD 13
def eepromBusyOf (r : Register) : Bool := r.getLsbD 12

/-! ### The status code and the result word -/

/-- The status code of a result (60_exceptions.md R141, R142, 30_encoding.md R66). -/
def Result.status : Result → BitVec 2
  | .float _ => 0b00
  | .reg _ => 0b00
  | .cfg _ => 0b00
  | .eq _ => 0b00
  | .noOpRequested => 0b01
  | .transportFailure => 0b10

/-- `RES[31:0]`: the operation's output port, zeros above it; on a failure an unspecified value, here `free`
(30_encoding.md R63, R66). -/
def Result.value (free : BitVec 32) : Result → BitVec 32
  | .float f => f
  | .reg r => field 32 0 r
  | .cfg c => field 32 0 (packRecord c)
  | .eq b => field 32 0 (BitVec.ofBool b)
  | .noOpRequested => free
  | .transportFailure => free

/-- A port that no operation has given a value holds none that is defined (10_state.md R22, R37): a free value. -/
def State.freePort (p : Config.OpenPort) (s : State) : BitVec 32 := Config.freePort p s.epoch

/-- The output port `status` (10_state.md R22). -/
def State.statusPort (s : State) : BitVec 2 :=
  match s.result with
  | some r => r.status
  | none => (s.freePort .status).setWidth 2

/-- The output port `reg_out`, written by TENC, CENC and CMRG (10_state.md R22). -/
def State.regOut (s : State) : BitVec 16 :=
  match s.result with
  | some (.reg r) => r
  | _ => (s.freePort .regOut).setWidth 16

/-- The output port `f_out`, written by TDEC (10_state.md R22). -/
def State.fOut (s : State) : BitVec 32 :=
  match s.result with
  | some (.float f) => f
  | _ => s.freePort .fOut

/-- The output port `rec_out`, written by CDEC, in record packing (10_state.md R22). -/
def State.recOut (s : State) : BitVec 16 :=
  match s.result with
  | some (.cfg c) => packRecord c
  | _ => (s.freePort .recOut).setWidth 16

/-- The output port `eq_out`, written by CEQ (10_state.md R22). -/
def State.eqOut (s : State) : BitVec 1 :=
  match s.result with
  | some (.eq b) => BitVec.ofBool b
  | _ => (s.freePort .eqOut).setWidth 1

/-- The result word `RES[33:0]`: status, then value (30_encoding.md R66). -/
def State.res (s : State) : ResWord :=
  field 34 32 s.statusPort ||| field 34 0 (
    match s.result with
    | some r => r.value (s.freePort .resValue)
    | none => s.freePort .resValue)

end Sys2Proof.Machine
end

