-- ==== Sys2Proof/Machine/ConfigurationCodec.lean ====
section
/-! DEFINITION. CDEC, CENC and CEQ (41_configuration_codec.md). -/

namespace Sys2Proof.Machine

/-- The alias collapse: a working copy whose mode field `0b10` is rewritten to `0b00` (41_configuration_codec.md R91). -/
def foldAlias (r : Register) : Register := if r &&& maskMode = modeAlias then r &&& ~~~maskMode else r

/-- `modeOf` on a folded field: `00` CONTINUOUS, `01` SHUTDOWN, `11` ONESHOT (41_configuration_codec.md R90). The pattern
`10` does not reach it (R92). -/
def modeOf (b : BitVec 2) : Mode :=
  if b = 0b01#2 then .shutdown else if b = 0b11#2 then .oneshot else .continuous

/-- CDEC (41_configuration_codec.md R90): the flags from the register, the fields from the folded working copy. -/
def cdec (regIn : Register) : Configuration :=
  let w := foldAlias regIn
  { highAlertFlag := highAlertOf regIn
    lowAlertFlag := lowAlertOf regIn
    dataReadyFlag := dataReadyOf regIn
    eepromBusyFlag := eepromBusyOf regIn
    mode := modeOf (w.extractLsb' 10 2)
    conv := CycleTime.ofBits (w.extractLsb' 7 3)
    avg := Averages.ofBits (w.extractLsb' 5 2)
    therm := ThermalAlert.ofBits (w.extractLsb' 4 1)
    pol := Polarity.ofBits (w.extractLsb' 3 1)
    dr := DataReadySelect.ofBits (w.extractLsb' 2 1) }

/-- CENC (41_configuration_codec.md R93): the six fields' patterns, each in its place, OR-ed together; the flags are not
read (R94). -/
def cenc (c : Configuration) : Register :=
  field 16 10 c.mode.bits ||| field 16 7 c.conv.bits ||| field 16 5 c.avg.bits ||| field 16 4 c.therm.bits |||
    field 16 3 c.pol.bits ||| field 16 2 c.dr.bits

/-- CEQ (41_configuration_codec.md R96): the six writable fields are pairwise equal; the flags do not take part. -/
def ceq (a b : Configuration) : Bool :=
  decide (a.mode = b.mode) && decide (a.conv = b.conv) && decide (a.avg = b.avg) && decide (a.therm = b.therm) &&
    decide (a.pol = b.pol) && decide (a.dr = b.dr)

/-! ### The meanings -/

/-- CDEC: the Configuration stands at `rec_out`, status `OK` (41_configuration_codec.md R90, R99). -/
def execCdec (regIn : Register) (s : State) : Host.Outcome State Fault Refusal :=
  s.whenReady (s.complete (.cfg (cdec regIn)))

/-- CENC: the register image stands at `reg_out`, status `OK` (41_configuration_codec.md R93, R99). -/
def execCenc (recIn : Configuration) (s : State) : Host.Outcome State Fault Refusal :=
  s.whenReady (s.complete (.reg (cenc recIn)))

/-- CEQ: one bit at `eq_out`, status `OK` (41_configuration_codec.md R96, R99). -/
def execCeq (recIn recIn2 : Configuration) (s : State) : Host.Outcome State Fault Refusal :=
  s.whenReady (s.complete (.eq (ceq recIn recIn2)))

end Sys2Proof.Machine
end

