-- ==== Sys2Proof/Machine/MergeEngine.lean ====
section
/-! DEFINITION. CMRG, the merge engine (42_merge_engine.md). The engine is the `PHASE` machine of R117; CMRG runs it from
acceptance until the operation returns or the transport has not yet answered. -/

namespace Sys2Proof.Machine

/-- Acceptance of a CMRG, the three rows of R117 that leave `IDLE`: the operands are latched; no override present ends it
with `NoOpRequested` (R106); all six present issue the write (R107); otherwise the read is issued (R108). No result
stands at the ports while the operation is in flight. -/
def cmrgAccept (d : DevAddr) (o : Overrides) (s : State) : State :=
  let s := { s with ovr := o, latched := d, result := none }
  if o.count = 0 then s.complete .noOpRequested
  else if o.count = 6 then
    let w := cenc (o.merge blankConfiguration)
    State.issue (.wr d addrCfg w) { s with cand := w, phase := .wrWait }
  else State.issue (.rd d addrCfg) { s with phase := .rdWait }

/-- The read has answered (R117, rows `RD_WAIT`): a failure ends the operation (R108); else the merge (R109), the
short-circuit (R110) or the write (R111). -/
def readAnswered (a : Answer) (s : State) : State :=
  match a with
  | .fail => s.complete .transportFailure
  | .ok r =>
    let w := cenc (s.ovr.merge (cdec r))
    let t := { s with cur := r, cand := w }
    if w = cenc (cdec r) then t.complete (.reg w)
    else State.issue (.wr s.latched addrCfg w) { t with phase := .wrWait }

/-- The write has answered (R117, rows `WR_WAIT`): the echo is the result as delivered (20_memory.md R42), or the failure. -/
def writeAnswered (a : Answer) (s : State) : State :=
  match a with
  | .fail => s.complete .transportFailure
  | .ok e => s.complete (.reg e)

/-- One transition of the engine, if the transport has answered; it waits otherwise (R117). -/
def engine (s : State) : State :=
  match s.phase with
  | .idle => s
  | .rdWait =>
    match s.respond with
    | none => s
    | some (a, t) => readAnswered a t
  | .wrWait =>
    match s.respond with
    | none => s
    | some (a, t) => writeAnswered a t

/-- The engine goes on as far as the transport has answered: an operation issues at most a read and a write (R113). -/
def runEngine (s : State) : State := engine (engine s)

/-- CMRG (R112). -/
def execCmrg (d : DevAddr) (o : Overrides) (s : State) : Host.Outcome State Fault Refusal :=
  s.whenReady (runEngine (cmrgAccept d o s))

/-! ### The other view: one function of the transport's answers -/

/-- CMRG as one function that takes the transport as an oracle (10_state.md R21, 42_merge_engine.md R112): the answers
the transport will give, in order, to the result and the events issued; none if it does not answer a call. -/
def cmrgFunction (d : DevAddr) (o : Overrides) (answers : List Answer) : Option (Result × List Event) :=
  if o.count = 0 then some (.noOpRequested, [])
  else if o.count = 6 then
    let w := cenc (o.merge blankConfiguration)
    match answers with
    | [] => none
    | .fail :: _ => some (.transportFailure, [{ req := .wr d addrCfg w, outcome := .fail }])
    | .ok e :: _ => some (.reg e, [{ req := .wr d addrCfg w, outcome := .ok e }])
  else
    match answers with
    | [] => none
    | .fail :: _ => some (.transportFailure, [{ req := .rd d addrCfg, outcome := .fail }])
    | .ok r :: rest =>
      let w := cenc (o.merge (cdec r))
      let rd : Event := { req := .rd d addrCfg, outcome := .ok r }
      if w = cenc (cdec r) then some (.reg w, [rd])
      else
        match rest with
        | [] => none
        | .fail :: _ => some (.transportFailure, [rd, { req := .wr d addrCfg w, outcome := .fail }])
        | .ok e :: _ => some (.reg e, [rd, { req := .wr d addrCfg w, outcome := .ok e }])

end Sys2Proof.Machine
end

