-- ==== Sys2Proof/Machine/TemperatureCodec.lean ====
section
/-! DEFINITION. TDEC and TENC (40_temperature_codec.md). -/

namespace Sys2Proof.Machine

/-! ### The fields of a binary32 pattern -/

def floatSign (f : FloatBits) : Bool := f.getLsbD 31

/-- The biased exponent. -/
def floatExp (f : FloatBits) : Nat := (f.extractLsb' 23 8).toNat

def floatFrac (f : FloatBits) : Nat := (f.extractLsb' 0 23).toNat

/-- NaN and the infinities are the patterns with the greatest exponent (40_temperature_codec.md R87). -/
def floatFinite (f : FloatBits) : Bool := floatExp f != 255

/-- The exponent that scales the significand: subnormals scale as the least normal exponent. -/
def floatScale (f : FloatBits) : Nat := if floatExp f = 0 then 1 else floatExp f

/-- The significand as an integer, with the hidden one of a normal value: the value of a finite pattern is
`±floatSig * 2^(floatScale - 150)`. -/
def floatSig (f : FloatBits) : Nat := if floatExp f = 0 then floatFrac f else 2 ^ 23 + floatFrac f

/-! ### TDEC -/

/-- TDEC (40_temperature_codec.md R81): the binary32 pattern of `sint16(reg_in) * 2^-7`, computed as R82 does:
`(s << 31) | (exponent << 23) | fraction`. -/
def tdec (regIn : Register) : FloatBits :=
  let n := sint16 regIn
  if n = 0 then 0
  else
    let m := n.natAbs
    let k := m.log2
    field 32 31 (BitVec.ofBool (decide (n < 0))) ||| field 32 23 (BitVec.ofNat 8 (k + 120)) |||
      field 32 0 (BitVec.ofNat 23 ((m - 2 ^ k) <<< (23 - k)))

/-! ### TENC -/

/-- `trunc(|f| * 128)` of a finite pattern, exactly: `floatSig * 2^(floatScale - 143)` with the fraction dropped
(40_temperature_codec.md R83). -/
def magnitude128 (f : FloatBits) : Nat :=
  if 143 ≤ floatScale f then floatSig f <<< (floatScale f - 143) else floatSig f >>> (143 - floatScale f)

/-- `q = trunc(f_in / 0.0078125)`, an unbounded integer (40_temperature_codec.md R83). -/
def trunc128 (f : FloatBits) : Int := if floatSign f then -(magnitude128 f : Int) else (magnitude128 f : Int)

/-- The range of a 16-bit signed integer. -/
def inRange16 (q : Int) : Bool := decide (-32768 ≤ q) && decide (q ≤ 32767)

/-- TENC for given out-of-range and special behaviours (40_temperature_codec.md R83). -/
def tencWith (oor : Int → Register) (special : FloatBits → Register) (fIn : FloatBits) : Register :=
  if floatFinite fIn then
    if inRange16 (trunc128 fIn) then tc16 (trunc128 fIn) else oor (trunc128 fIn)
  else special fIn

/-- TENC with the OPEN parameters (40_temperature_codec.md R85, R86). -/
def tenc (fIn : FloatBits) : Register := tencWith Config.tencOor Config.tencSpecial fIn

/-- The policy `WRAP`: the low 16 bits of the truncated integer (40_temperature_codec.md R85). -/
def oorWrap (q : Int) : Register := tc16 q

/-- The policy `SATURATE` (40_temperature_codec.md R85). -/
def oorSaturate (q : Int) : Register := if q > 32767 then 0x7FFF else 0x8000

/-- TENC at the bit level as R87 gives it, a derived form of R83. -/
def tencBits (oor : Int → Register) (special : FloatBits → Register) (fIn : FloatBits) : Register :=
  let e := floatExp fIn
  if e = 255 then special fIn
  else if e < 120 then 0
  else
    let k := e - 120
    let sig := 2 ^ 23 + floatFrac fIn
    let m := if k ≤ 23 then sig >>> (23 - k) else sig <<< (k - 23)
    let q : Int := if floatSign fIn then -(m : Int) else (m : Int)
    if inRange16 q then tc16 q else oor q

/-! ### The meanings -/

/-- TDEC: the decoded temperature stands at `f_out`, status `OK`; no state is read (40_temperature_codec.md R81, R89). -/
def execTdec (regIn : Register) (s : State) : Host.Outcome State Fault Refusal :=
  s.whenReady (s.complete (.float (tdec regIn)))

/-- TENC: the encoded temperature stands at `reg_out`, status `OK` (40_temperature_codec.md R83, R89). -/
def execTenc (fIn : FloatBits) (s : State) : Host.Outcome State Fault Refusal :=
  s.whenReady (s.complete (.reg (tenc fIn)))

end Sys2Proof.Machine
end

