-- ==== Sys2Proof/Machine/Dispatch.lean ====
section
/-! DEFINITION. One arm per operation (30_encoding.md R63). -/

namespace Sys2Proof.Machine

/-- What an operation does when it is presented. -/
def exec (i : Instr) (s : State) : Host.Outcome State Fault Refusal :=
  match i with
  | .tdec regIn => Sys2Proof.Machine.execTdec regIn s
  | .tenc fIn => Sys2Proof.Machine.execTenc fIn s
  | .cdec regIn => Sys2Proof.Machine.execCdec regIn s
  | .cenc recIn => Sys2Proof.Machine.execCenc recIn s
  | .cmrg d o => Sys2Proof.Machine.execCmrg d o s
  | .ceq recIn recIn2 => Sys2Proof.Machine.execCeq recIn recIn2 s

end Sys2Proof.Machine
end

