-- ==== Sys2Proof/Machine/Facade.lean ====
section
/-! DEFINITION. The Driver Facade's eight pseudo-operations (43_facade_boundary.md). Each expands into transport calls and
operations of CORE; an operation of CORE that it runs leaves its result at CORE's ports as any other. -/

namespace Sys2Proof.Machine

/-- `TEMP_SENTINEL`, -256.0 degC (43_facade_boundary.md R127, decision D24). -/
def tempSentinel : FloatBits := 0xC3800000

/-- The caller's validation of the identity, a comparison the core does not make (43_facade_boundary.md R128). -/
def identityMatches (r : Register) : Bool := r == Config.deviceIdExpected

/-- A Facade operation returns a result. -/
def State.report (r : FacadeResult) (s : State) : State := { s with facadeResult := some r }

/-- The Facade's transport call has answered: what each operation returns (43_facade_boundary.md R126 to R131). SETCFG and
SETADDR issue no call of their own. -/
def facadeFinish (p : Pseudo) (a : Answer) (s : State) : State :=
  match p, a with
  | .getTemp, .ok r => (s.complete (.float (tdec r))).report (.temperature (tdec r))
  | .getTemp, .fail => s.report (.temperature tempSentinel)
  | .getId, .ok r => s.report (.register r)
  | .getId, .fail => s.report .transportFailure
  | .getCfgRaw, .ok r => s.report (.register r)
  | .getCfgRaw, .fail => s.report .transportFailure
  | .getCfg, .ok r => (s.complete (.cfg (cdec r))).report (.configuration (cdec r))
  | .getCfg, .fail => s.report .transportFailure
  | .setHi _, .ok e => s.report (.register e)
  | .setHi _, .fail => s.report .transportFailure
  | .setLo _, .ok e => s.report (.register e)
  | .setLo _, .fail => s.report .transportFailure
  | .setCfg _, _ => s
  | .setAddr _, _ => s

/-- The Facade operation in flight goes on if the transport has answered its call. -/
def facadeRun (s : State) : State :=
  match s.facade with
  | none => s
  | some p =>
    match s.respond with
    | none => s
    | some (a, t) => facadeFinish p a { t with facade := none }

/-- A Facade operation issues its one call (43_facade_boundary.md R125). -/
def facadeCall (p : Pseudo) (req : Request) (s : State) : State :=
  facadeRun (State.issue req { s with facade := some p, facadeResult := none })

/-- GETTEMP (R126). -/
def getTemp (s : State) : State := facadeCall .getTemp (.rd s.devaddr addrTemp) s

/-- GETID (R128). -/
def getId (s : State) : State := facadeCall .getId (.rd s.devaddr addrId) s

/-- GETCFGRAW (R129). -/
def getCfgRaw (s : State) : State := facadeCall .getCfgRaw (.rd s.devaddr addrCfg) s

/-- GETCFG (R129). -/
def getCfg (s : State) : State := facadeCall .getCfg (.rd s.devaddr addrCfg) s

/-- SETCFG: CMRG with `DEVADDR` (R130). -/
def setCfg (o : Overrides) (s : State) : State :=
  runEngine (cmrgAccept s.devaddr o { s with facade := some (.setCfg o), facadeResult := none })

/-- SETHI: TENC, then one unconditional write (R131). -/
def setHi (x : FloatBits) (s : State) : State :=
  facadeCall (.setHi x) (.wr s.devaddr addrHigh (tenc x)) (s.complete (.reg (tenc x)))

/-- SETLO: TENC, then one unconditional write (R131). -/
def setLo (x : FloatBits) (s : State) : State :=
  facadeCall (.setLo x) (.wr s.devaddr addrLow (tenc x)) (s.complete (.reg (tenc x)))

/-- SETADDR: `DEVADDR <- a`, no transport call; an address outside `DEVADDR_SET` is refused (R132, U7). -/
def setAddr (a : DevAddr) (s : State) : Host.Outcome State Fault Refusal :=
  if WellFormed.pseudo (.setAddr a) then .next { s with devaddr := a, facadeResult := some .readdressed }
  else .refused .devaddrOutsideSet

/-- A Facade operation, presented when none is in flight; it waits otherwise (70_reset_and_hazards.md R162). -/
def execPseudo (p : Pseudo) (s : State) : Host.Outcome State Fault Refusal :=
  match p with
  | .getTemp => s.whenReady (getTemp s)
  | .getId => s.whenReady (getId s)
  | .getCfgRaw => s.whenReady (getCfgRaw s)
  | .getCfg => s.whenReady (getCfg s)
  | .setCfg o => s.whenReady (setCfg o s)
  | .setHi x => s.whenReady (setHi x s)
  | .setLo x => s.whenReady (setLo x s)
  | .setAddr a => if s.ready then setAddr a s else .next s

end Sys2Proof.Machine
end

