-- ==== Sys2Proof/Machine/Requester.lean ====
section
/-! DEFINITION. What the step takes up: the next input, or the operation in flight going on. The block has no program
counter and fetches no instructions (10_state.md R23); a command word is presented at its port. -/

namespace Sys2Proof.Machine

/-- The operation in flight goes on as far as the transport has answered. -/
def goOn (s : State) : State := if s.phase = .idle then facadeRun s else runEngine s

/-- A step in which nothing is taken up: time passes for the outstanding call, and the operation in flight goes on. If the
transport never answers the operation never returns (42_merge_engine.md R117). -/
def await (s : State) : State := goOn s.tick.countdown

/-- Take up the next input (00_scope.md R12). A command or a Facade operation is taken up only when none is in flight, and
stays presented until then (70_reset_and_hazards.md R162); a word that spells no operation is refused
(30_encoding.md R67); DEVADDR changed in flight is refused (70_reset_and_hazards.md R163). -/
def fetch (s : State) : Fetched :=
  match s.inputs with
  | [] => .proceed (await s)
  | .command w :: rest =>
    if s.ready then
      match decode w with
      | .ok i => .run i { s with inputs := rest }
      | .error e => .refuse (.reservedCommand e)
    else .proceed (await s)
  | .pseudo p :: rest => if s.ready then .pseudo p { s with inputs := rest } else .proceed (await s)
  | .quiet :: rest => .proceed (await { s with inputs := rest })
  | .reset :: rest => .proceed (State.resetBlock { s with inputs := rest })
  | .mutateDevaddr a :: rest =>
    if s.ready then .pseudo (.setAddr a) { s with inputs := rest } else .refuse .devaddrChangedInFlight
  | .deviceChange a v :: rest => .proceed (await (State.changeDevice a v { s with inputs := rest }))

/-- The machine with a command word presented and CORE able to accept it, so that the next step runs it. -/
def presentCommand (w : CmdWord) (s : State) : State :=
  if s.ready then { s with inputs := .command w :: s.inputs }
  else { s with inputs := .command w :: s.inputs, phase := .idle, facade := none, call := none }

end Sys2Proof.Machine
end

