-- ==== Sys2Proof/Machine/Step.lean ====
section
/-! DEFINITION. One step of the machine, and how the host has a word run. -/

namespace Sys2Proof.Machine

/-- One step: take up the next input and run it, or go on with the operation in flight. -/
def step (s : State) : Host.Outcome State Fault Refusal :=
  match fetch s with
  | .run i t => exec i t
  | .pseudo p t => execPseudo p t
  | .proceed t => .next t
  | .refuse r => .refused r

/-- The machine with the command word of the opcode table's numbering presented, so that the next step runs it (log 6). -/
def State.withFetchWord (s : State) (nbits w : Nat) : State :=
  presentCommand (BitVec.ofNat 35 (w % 2 ^ nbits)) s

end Sys2Proof.Machine
end

