-- ==== Sys2Proof/Safety.lean ====
section
/-! DEFINITION. The terms claims are stated in: the exact value of a float, what a canonical image and a legal transport
request are, the named premises of 92_eei_decisions.md, and the invariant of the machine. -/

namespace Sys2Proof.Safety

open Sys2Proof.Machine

/-! ### Exact values -/

/-- The real number a finite binary32 pattern stands for. -/
def floatValue (f : FloatBits) : ℚ :=
  (if floatSign f then -1 else 1) * (floatSig f : ℚ) * (2 : ℚ) ^ ((floatScale f : ℤ) - 150)

/-- `trunc`: the fractional part discarded, toward zero (00_scope.md R8). -/
def truncQ (x : ℚ) : ℤ := if 0 ≤ x then ⌊x⌋ else ⌈x⌉

/-- The pattern of `-x`: the sign bit inverted. -/
def floatNeg (f : FloatBits) : FloatBits := f ^^^ 0x80000000#32

/-- The premise "input in range": finite and `-256.0078125 < x < 256.0` (40_temperature_codec.md R84). -/
def TempInRange (f : FloatBits) : Prop :=
  floatFinite f = true ∧ -32769 < 128 * floatValue f ∧ 128 * floatValue f < 32768

/-! ### Images and requests -/

/-- A canonical `CFGR` image: flag and reserved positions zero, no alias pattern (41_configuration_codec.md R95). -/
def canonicalCfg (r : Register) : Bool :=
  decide (r &&& 0xF003#16 = 0#16) && decide (r.extractLsb' 10 2 ≠ 0b10#2)

/-- The transport calls the block and the Facade make: which registers are read, which are written, and what may be
written to `CFGR` (20_memory.md R53, 42_merge_engine.md R116 g). -/
def legalRequest : Request → Bool
  | .rd _ a => a == addrTemp || a == addrCfg || a == addrId
  | .wr _ a v => (a == addrCfg && canonicalCfg v) || a == addrHigh || a == addrLow

/-- The one call a Facade operation makes itself (43_facade_boundary.md R126 to R131). -/
def facadeRequest (d : DevAddr) : Pseudo → Option Request
  | .getTemp => some (.rd d addrTemp)
  | .getId => some (.rd d addrId)
  | .getCfgRaw => some (.rd d addrCfg)
  | .getCfg => some (.rd d addrCfg)
  | .setHi x => some (.wr d addrHigh (tenc x))
  | .setLo x => some (.wr d addrLow (tenc x))
  | .setCfg _ => none
  | .setAddr _ => none

/-! ### The named premises (92_eei_decisions.md) -/

/-- `EchoEqualsWritten`: every successful write among the events returned the value written (20_memory.md R42). -/
def EchoEqualsWritten (h : List Event) : Prop :=
  ∀ d a v e, ({ req := .wr d a v, outcome := .ok e } : Event) ∈ h → e = v

/-- A CMRG has its read in hand and its write has not taken effect: the moment at which a change of the device would be
lost (20_memory.md R49, 70_reset_and_hazards.md R165). A CMRG with all six overrides reads nothing. -/
def betweenReadAndWrite (s : State) : Bool := decide (s.phase = .wrWait) && decide (s.ovr.count ≠ 6)

/-- What `SingleWriter` asks of one step: a change of `CFGR` that comes between the read and the write leaves the six
writable fields as the read returned them. A change of the flags, of another register, or at another moment is allowed
(20_memory.md R49). What the read returned is in `CUR` whichever transport is bound, so the premise is one for both. -/
def singleWriterHere (s : State) : Bool :=
  match s.inputs with
  | .deviceChange a v :: _ => !betweenReadAndWrite s || a != addrCfg || ceq (cdec v) (cdec s.cur)
  | _ => true

/-- `SingleWriter`, over a run: in its first `n` steps and the one after them, between the read and the write of one CMRG
nothing but that CMRG writes the device's writable fields (92_eei_decisions.md, 20_memory.md R49, log 11). -/
def SingleWriter (n : Nat) (s : State) : Prop :=
  ∀ k t, k ≤ n → Sys2Proof.core.run k s = .next t → singleWriterHere t = true

/-- What `SingleWriter` gives on the stub: between the read and the write of a CMRG the register holds the writable fields
that the read returned. -/
def ReadIsCurrent (s : State) : Prop :=
  betweenReadAndWrite s = true → s.binding = .stub → ceq (cdec (s.store.read addrCfg.toNat)) (cdec s.cur) = true

/-- The step takes nothing up from outside: nothing is presented, or a command or a Facade operation that waits while one
is in flight (70_reset_and_hazards.md R162). -/
def nothingElsePresented (s : State) : Bool :=
  match s.inputs with
  | [] => true
  | .command _ :: _ => true
  | .pseudo _ :: _ => true
  | _ => false

/-! ### The invariant -/

/-- The Facade operation in flight while the engine runs, if any, is a SETCFG (43_facade_boundary.md R130). -/
def delegated : Option Pseudo → Bool
  | none => true
  | some (.setCfg _) => true
  | some _ => false

/-- The image a CMRG in WR_WAIT writes: of the six values, or of the merge with what its read returned
(42_merge_engine.md R117). -/
def candidateImage (s : State) : Register :=
  if s.ovr.count = 6 then cenc (s.ovr.merge blankConfiguration) else cenc (s.ovr.merge (cdec s.cur))

/-- What is outstanding at the transport port is what the operation in flight asked for (42_merge_engine.md R117,
43_facade_boundary.md R125), and nothing is when no operation is in flight. -/
def PortCoherent (s : State) : Prop :=
  match s.phase with
  | .idle =>
    match s.facade with
    | none => s.call = none
    | some p => ∃ c, s.call = some c ∧ facadeRequest s.devaddr p = some c.req
  | .rdWait =>
    delegated s.facade = true ∧ 1 ≤ s.ovr.count ∧ s.ovr.count ≤ 5 ∧
      ∃ n, s.call = some { req := .rd s.latched addrCfg, left := n }
  | .wrWait =>
    delegated s.facade = true ∧ 1 ≤ s.ovr.count ∧ canonicalCfg s.cand = true ∧ s.cand = candidateImage s ∧
      ∃ n, s.call = some { req := .wr s.latched addrCfg s.cand, left := n }

/-- What holds in every state a run meets: the stub's store is canonical, DEVADDR is a member of DEVADDR_SET, every call
ever made was a legal one, and the port is coherent with the operation in flight. -/
structure MachineInv (s : State) : Prop where
  store_wf : s.store.wf = true
  devaddr_mem : s.devaddr ∈ Config.devAddrSet
  history_legal : ∀ e ∈ s.history, legalRequest e.req = true
  port_coherent : PortCoherent s

/-- A run that meets only next states: nothing on this block faults, so a safe run is one that presents nothing the spec
refuses. -/
def SafeFor (n : Nat) (s : State) : Prop := ∃ t, Sys2Proof.core.run n s = .next t

end Sys2Proof.Safety
end

