-- ==== Sys2Proof/Certificates/Slice0/Obligations.lean ====
section
/-! DEFINITION. The statements for the provers, one per `def Obligations.<Name> : Prop`, with the rule of spec/ each
formalises. Epoch is the model's own counter (log 2): no statement rests on its value. -/

open Sys2Proof Sys2Proof.Machine Sys2Proof.Safety

/-! ### The Temperature Codec -/

/-- TDEC completes whenever the block is idle; its result is the finite float that stands exactly for `sint16(reg_in)/128`;
nothing else changes. Zero gives positive zero, and every other image a pattern whose biased exponent is 120 .. 135, so
never negative zero, a subnormal, an infinity or a NaN; distinct images give distinct floats; its encoding is op 000 with
the image in the low 16 bits (R81). -/
def Obligations.TdecGivesExactValue : Prop :=
  (∀ (r : Register) (s : State), s.phase = .idle → s.facade = none →
    ∃ f, exec (.tdec r) s = .next { s with result := some (.float f), epoch := s.epoch + 1 } ∧
      floatFinite f = true ∧ floatValue f = (sint16 r : ℚ) / 128 ∧
      (r = 0#16 → f = 0x00000000#32) ∧ (r ≠ 0#16 → 120 ≤ floatExp f ∧ floatExp f ≤ 135)) ∧
  (∀ r r' : Register, tdec r = tdec r' → r = r') ∧
  ∀ r : Register, (encode (.tdec r)).extractLsb' 32 3 = 0b000#3 ∧ (encode (.tdec r)).extractLsb' 0 16 = r

/-- TENC completes whenever the block is idle; its result is `tc16(trunc(128 x))` where the truncated value is in range,
`TENC_OOR` of it where it is not, and `TENC_SPECIAL` of the operand for a NaN or an infinity; nothing else changes; its encoding is op 001 with the float in
the low 32 bits (R83). -/
def Obligations.TencTruncatesTowardZero : Prop :=
  (∀ (f : FloatBits) (s : State), s.phase = .idle → s.facade = none →
    ∃ w : Register, exec (.tenc f) s = .next { s with result := some (.reg w), epoch := s.epoch + 1 } ∧
      (floatFinite f = false → w = Config.tencSpecial f) ∧
      (floatFinite f = true → -32768 ≤ truncQ (floatValue f * 128) → truncQ (floatValue f * 128) ≤ 32767 →
        w = tc16 (truncQ (floatValue f * 128))) ∧
      (floatFinite f = true → ¬(-32768 ≤ truncQ (floatValue f * 128) ∧ truncQ (floatValue f * 128) ≤ 32767) →
        w = Config.tencOor (truncQ (floatValue f * 128)))) ∧
  ∀ f : FloatBits, (encode (.tenc f)).extractLsb' 32 3 = 0b001#3 ∧ (encode (.tenc f)).extractLsb' 0 32 = f

/-- The in-range inputs are exactly the finite floats with `-32769 < 128 x < 32768`; for them no parameter enters; and the
boundary patterns fall as the rule says (R84). -/
def Obligations.TencInRangeInputs : Prop :=
  (∀ f : FloatBits, TempInRange f ↔
    floatFinite f = true ∧ -32768 ≤ truncQ (128 * floatValue f) ∧ truncQ (128 * floatValue f) ≤ 32767) ∧
  (∀ f : FloatBits, TempInRange f → ∀ oor special, tencWith oor special f = tc16 (truncQ (128 * floatValue f))) ∧
  (TempInRange 0x437FFFFF#32 ∧ tenc 0x437FFFFF#32 = 0x7FFF#16) ∧ ¬ TempInRange 0x43800000#32 ∧
  (∀ f : FloatBits, 0xC3800000#32 ≤ f → f ≤ 0xC38000FF#32 → TempInRange f ∧ tenc f = 0x8000#16) ∧
  ¬ TempInRange 0xC3800100#32

/-- The bit-level algorithm of R87 agrees with R83's truncation for every pattern, whatever the OPEN parameters. -/
def Obligations.TencBitAlgorithmAgrees : Prop :=
  ∀ (oor : Int → Register) (special : FloatBits → Register) (f : FloatBits),
    tencBits oor special f = tencWith oor special f

/-- Register round trip: encoding a decoded register gives it back, whatever the OPEN parameters (R88 a). -/
def Obligations.TemperatureRegisterRoundTrip : Prop :=
  ∀ (oor : Int → Register) (special : FloatBits → Register) (r : Register), tencWith oor special (tdec r) = r

/-- Float round trip: for an input in range, decoding the encoded value gives `trunc(128 x)/128`, on the side of zero and
less than 1/128 away (R88 b). -/
def Obligations.TemperatureFloatRoundTrip : Prop :=
  ∀ f : FloatBits, TempInRange f →
    floatValue (tdec (tenc f)) = (truncQ (128 * floatValue f) : ℚ) / 128 ∧
    0 ≤ |floatValue f| - |floatValue (tdec (tenc f))| ∧ |floatValue f| - |floatValue (tdec (tenc f))| < 1 / 128

/-- TENC does not decrease on inputs in range, and is odd where both `x` and `-x` are in range (R88 c). -/
def Obligations.TencMonotoneAndOdd : Prop :=
  (∀ f g : FloatBits, TempInRange f → TempInRange g → floatValue f ≤ floatValue g → sint16 (tenc f) ≤ sint16 (tenc g)) ∧
  ∀ f : FloatBits, TempInRange f → TempInRange (floatNeg f) → tenc (floatNeg f) = tc16 (-sint16 (tenc f))

/-! ### The Configuration Codec -/

/-- CDEC completes whenever the block is idle; the flags are the register's bits 15 to 12, the fields its bits in place, the
mode code `0b10` folded to `0b00`, and bits [1:0] are not looked at; nothing else changes; its encoding is op 010 with the
image in the low 16 bits (R90). -/
def Obligations.CdecDecodesEveryField : Prop :=
  (∀ (r : Register) (s : State), s.phase = .idle → s.facade = none →
    ∃ c : Configuration, exec (.cdec r) s = .next { s with result := some (.cfg c), epoch := s.epoch + 1 } ∧
      c.highAlertFlag = r.getLsbD 15 ∧ c.lowAlertFlag = r.getLsbD 14 ∧ c.dataReadyFlag = r.getLsbD 13 ∧
      c.eepromBusyFlag = r.getLsbD 12 ∧
      c.mode.bits = (if r.extractLsb' 10 2 = 0b10#2 then 0b00#2 else r.extractLsb' 10 2) ∧
      c.conv.bits = r.extractLsb' 7 3 ∧ c.avg.bits = r.extractLsb' 5 2 ∧ c.therm.bits = r.extractLsb' 4 1 ∧
      c.pol.bits = r.extractLsb' 3 1 ∧ c.dr.bits = r.extractLsb' 2 1 ∧ c = cdec (r &&& 0xFFFC#16)) ∧
  ∀ r : Register, (encode (.cdec r)).extractLsb' 32 3 = 0b010#3 ∧ (encode (.cdec r)).extractLsb' 0 16 = r

/-- The alias pattern decodes to CONTINUOUS and leaves no trace: the record is that of the register with `0b00` in its
place; CENC never produces the pattern (R91). -/
def Obligations.CdecFoldsTheModeAlias : Prop :=
  (∀ r : Register, r.extractLsb' 10 2 = 0b10#2 → (cdec r).mode = .continuous ∧ cdec r = cdec (r &&& 0xF3FF#16)) ∧
  (∀ r : Register, r.extractLsb' 10 2 = 0b00#2 → (cdec r).mode = .continuous ∧ cdec (r ||| 0x0800#16) = cdec r) ∧
  ∀ c : Configuration, (cenc c).extractLsb' 10 2 ≠ 0b10#2

/-- CENC completes whenever the block is idle; its result is the OR of the six fields' patterns; nothing else changes; its
encoding is op 011 with the record in the low 16 bits (R93). -/
def Obligations.CencOrsFieldPatterns : Prop :=
  (∀ (c : Configuration) (s : State), s.phase = .idle → s.facade = none →
    exec (.cenc c) s = .next { s with
      result := some (.reg (
        (match c.mode with | .continuous => 0x0000#16 | .shutdown => 0x0400#16 | .oneshot => 0x0C00#16) |||
        (match c.conv with
          | .cct0 => 0x0000#16 | .cct1 => 0x0080#16 | .cct2 => 0x0100#16 | .cct3 => 0x0180#16
          | .cct4 => 0x0200#16 | .cct5 => 0x0280#16 | .cct6 => 0x0300#16 | .cct7 => 0x0380#16) |||
        (match c.avg with
          | .avg1 => 0x0000#16 | .avg8 => 0x0020#16 | .avg32 => 0x0040#16 | .avg64 => 0x0060#16) |||
        (match c.therm with | .alert => 0x0000#16 | .therm => 0x0010#16) |||
        (match c.pol with | .activeLow => 0x0000#16 | .activeHigh => 0x0008#16) |||
        (match c.dr with | .alertStatus => 0x0000#16 | .dataReady => 0x0004#16)))
      epoch := s.epoch + 1 }) ∧
  ∀ c : Configuration, (encode (.cenc c)).extractLsb' 32 3 = 0b011#3 ∧
    (encode (.cenc c)).extractLsb' 0 16 = packRecord c

/-- The flag positions of an encoded register are zero whatever the flags, two records that differ only in flags encode
the same, and 0xAAAA decoded and encoded is 0x02A8 (R94, 90_conflicts.md C1). -/
def Obligations.CencMasksStatusFlags : Prop :=
  (∀ c : Configuration, (cenc c).extractLsb' 12 4 = 0b0000#4) ∧
  (∀ (c : Configuration) (h l d e : Bool),
    cenc { c with highAlertFlag := h, lowAlertFlag := l, dataReadyFlag := d, eepromBusyFlag := e } = cenc c) ∧
  cenc (cdec 0xAAAA#16) = 0x02A8#16

/-- The two low bits of an encoded register are `00`; with the flags masked and no alias produced every image is canonical;
CENC takes exactly 768 values (R95). -/
def Obligations.CencImageIsCanonical : Prop :=
  (∀ c : Configuration, (cenc c).extractLsb' 0 2 = 0b00#2 ∧ cenc c &&& 0xF003#16 = 0#16 ∧
    (cenc c).extractLsb' 10 2 ≠ 0b10#2) ∧
  (Set.range cenc).ncard = 768

/-- CEQ completes whenever the block is idle; its bit says whether the six writable fields are pairwise equal, the flags
taking no part, which is so exactly where the encodings are equal; nothing else changes; its encoding is op 101 with the
first record in the high half of the operand and the second in the low half (R96). -/
def Obligations.CeqComparesWritableFields : Prop :=
  (∀ (a b : Configuration) (s : State), s.phase = .idle → s.facade = none →
    ∃ e : Bool, exec (.ceq a b) s = .next { s with result := some (.eq e), epoch := s.epoch + 1 } ∧
      (e = true ↔ a.mode = b.mode ∧ a.conv = b.conv ∧ a.avg = b.avg ∧ a.therm = b.therm ∧ a.pol = b.pol ∧ a.dr = b.dr) ∧
      (e = true ↔ cenc a = cenc b)) ∧
  ∀ a b : Configuration, (encode (.ceq a b)).extractLsb' 32 3 = 0b101#3 ∧
    (encode (.ceq a b)).extractLsb' 16 16 = packRecord a ∧ (encode (.ceq a b)).extractLsb' 0 16 = packRecord b

/-- The mask forms in record packing and the round trips of the Configuration Codec (R97 a to e). -/
def Obligations.ConfigurationRoundTrips : Prop :=
  (∀ r : Register, packRecord (cdec r) =
    (r &&& 0xFFFC#16) &&& ~~~((r &&& 0x0800#16) &&& ~~~((r &&& 0x0400#16) <<< 1))) ∧
  (∀ r : Register, packRecord (cdec r) = if r.extractLsb' 10 2 = 0b10#2 then r &&& 0xF7FC#16 else r &&& 0xFFFC#16) ∧
  (∀ c : Configuration, cenc c = packRecord c &&& 0x0FFC#16) ∧
  (∀ r : Register, cenc (cdec r) = if r.extractLsb' 10 2 = 0b10#2 then r &&& 0x03FC#16 else r &&& 0x0FFC#16) ∧
  (∀ r : Register, cenc (cdec r) = r ↔ (r &&& 0xF003#16 = 0#16 ∧ r.extractLsb' 10 2 ≠ 0b10#2)) ∧
  (∀ c : Configuration, cdec (cenc c) =
    { c with highAlertFlag := false, lowAlertFlag := false, dataReadyFlag := false, eepromBusyFlag := false }) ∧
  (∀ c : Configuration, ceq (cdec (cenc c)) c = true) ∧
  ∀ c : Configuration, cenc (cdec (cenc c)) = cenc c

/-- CENC is injective on the writable fields (R98). -/
def Obligations.CencInjectiveOnWritableFields : Prop :=
  ∀ a b : Configuration, cenc a = cenc b ↔ ceq a b = true

/-! ### Encoding -/

/-- Decoding an encoded operation gives it back, with every operand at every value. -/
def Obligations.DecodeEncodeAgree : Prop := ∀ i : Instr, decode (encode i) = .ok i

/-- Every format: the operation select says which operation, the bits a format names are its operands, and no other bit
plays a part (R61, R62, R63): each word below decodes to a term of the named bits alone. -/
def Obligations.CommandFormats : Prop :=
  ∀ w : CmdWord,
    (w.extractLsb' 32 3 = 0b000#3 → decode w = .ok (.tdec (w.extractLsb' 0 16))) ∧
    (w.extractLsb' 32 3 = 0b001#3 → decode w = .ok (.tenc (w.extractLsb' 0 32))) ∧
    (w.extractLsb' 32 3 = 0b010#3 → decode w = .ok (.cdec (w.extractLsb' 0 16))) ∧
    (∀ c, w.extractLsb' 32 3 = 0b011#3 → packRecord c = w.extractLsb' 0 16 &&& 0xFFFC#16 →
      decode w = .ok (.cenc c)) ∧
    (∀ o, w.extractLsb' 32 3 = 0b100#3 → overridesOf (w.extractLsb' 16 6) (w.extractLsb' 2 10) = some o →
      decode w = .ok (.cmrg (w.extractLsb' 24 7) o)) ∧
    (∀ a b, w.extractLsb' 32 3 = 0b101#3 → packRecord a = w.extractLsb' 16 16 &&& 0xFFFC#16 →
      packRecord b = w.extractLsb' 0 16 &&& 0xFFFC#16 → decode w = .ok (.ceq a b))

/-- Override i is present when its presence bit is 1, with the variant whose pattern stands in its positions, and absent
when it is 0, its positions then ignored; the spelling fails only for a present mode `0b10` (R64, R67). -/
def Obligations.OverridesFollowPresenceMask : Prop :=
  ∀ (p : BitVec 6) (v : BitVec 10),
    (overridesOf p v = none ↔ p.getLsbD 5 = true ∧ v.extractLsb' 8 2 = 0b10#2) ∧
    ∀ o, overridesOf p v = some o →
      o.mode.map Mode.bits = (if p.getLsbD 5 then some (v.extractLsb' 8 2) else none) ∧
      o.conv.map CycleTime.bits = (if p.getLsbD 4 then some (v.extractLsb' 5 3) else none) ∧
      o.avg.map Averages.bits = (if p.getLsbD 3 then some (v.extractLsb' 3 2) else none) ∧
      o.therm.map ThermalAlert.bits = (if p.getLsbD 2 then some (v.extractLsb' 2 1) else none) ∧
      o.pol.map Polarity.bits = (if p.getLsbD 1 then some (v.extractLsb' 1 1) else none) ∧
      o.dr.map DataReadySelect.bits = (if p.getLsbD 0 then some (v.extractLsb' 0 1) else none)

/-- The record packing is a bijection between the Configurations and the words with `[1:0] = 00` and mode code other than
`0b10`; on input `[1:0]` are ignored and the mode code `0b10` spells no record (R65). -/
def Obligations.RecordPackingIsBijection : Prop :=
  (∀ c : Configuration, unpackRecord (packRecord c) = some c ∧ packRecord c &&& 0x0003#16 = 0#16) ∧
  (∀ (w : BitVec 16) (c : Configuration), unpackRecord w = some c → packRecord c = w &&& 0xFFFC#16) ∧
  ∀ w : BitVec 16, unpackRecord w = none ↔ w.extractLsb' 10 2 = 0b10#2

/-- The words that spell no operation are exactly those of R67, and a step that is presented one refuses by name. -/
def Obligations.ReservedCommandsAreRefused : Prop :=
  (∀ w : CmdWord, (∃ e, decode w = .error e) ↔
    (w.extractLsb' 32 3 = 0b110#3 ∨ w.extractLsb' 32 3 = 0b111#3 ∨
     (w.extractLsb' 32 3 = 0b011#3 ∧ w.extractLsb' 10 2 = 0b10#2) ∨
     (w.extractLsb' 32 3 = 0b101#3 ∧ (w.extractLsb' 26 2 = 0b10#2 ∨ w.extractLsb' 10 2 = 0b10#2)) ∨
     (w.extractLsb' 32 3 = 0b100#3 ∧ w.getLsbD 21 = true ∧ w.extractLsb' 10 2 = 0b10#2))) ∧
  ∀ (w : CmdWord) (e : DecodeError) (rest : List Input) (s : State), s.phase = .idle → s.facade = none →
    s.inputs = .command w :: rest → decode w = .error e → step s = .refused (.reservedCommand e)

/-- The well-formedness check admits exactly the words the decoder reads. -/
def Obligations.AdmittedWordsAreThoseDecoded : Prop :=
  ∀ w : CmdWord, WellFormed.admits w = true ↔ ∃ i, decode w = .ok i

/-- The encodings the spec writes out decode to the operations they stand for (a sanity statement). -/
def Obligations.WrittenOutWordsDecode : Prop :=
  decode 0x000000C80#35 = .ok (.tdec 0x0C80) ∧
  decode 0x141C80000#35 = .ok (.tenc 0x41C80000) ∧
  decode 0x200000220#35 = .ok (.cdec 0x0220) ∧
  decode 0x44B200400#35 = .ok (.cmrg 0x4B { noOverrides with mode := some .shutdown }) ∧
  decode 0x44807001C#35 =
    .ok (.cmrg 0x48 { noOverrides with therm := some .therm, pol := some .activeHigh, dr := some .dataReady })

/-! ### The step -/

/-- When no operation is in flight and the word presented spells an operation, the step is `exec` of it at the state with
the word taken up; a Facade operation presented is run the same way. -/
def Obligations.StepRunsWhatIsPresented : Prop :=
  (∀ (s : State) (w : CmdWord) (rest : List Input) (i : Instr), s.phase = .idle → s.facade = none →
    s.inputs = .command w :: rest → decode w = .ok i → step s = exec i { s with inputs := rest }) ∧
  ∀ (s : State) (p : Pseudo) (rest : List Input), s.phase = .idle → s.facade = none →
    s.inputs = .pseudo p :: rest → step s = execPseudo p { s with inputs := rest }

/-- A command or a Facade operation presented while one is in flight is not accepted: running it does nothing, and a step
goes on with the operation in flight and leaves it presented (R162, decision D17). -/
def Obligations.CommandWaitsWhileBusy : Prop :=
  ∀ s : State, s.phase ≠ .idle ∨ s.facade.isSome = true →
    (∀ i, exec i s = .next s) ∧ (∀ p, execPseudo p s = .next s) ∧
    ∀ (w : CmdWord) (p : Pseudo) (rest : List Input), s.inputs = .command w :: rest ∨ s.inputs = .pseudo p :: rest →
      ∃ t, step s = .next t ∧ t.inputs = s.inputs

/-! ### The merge engine -/

/-- No override present: the operation ends at once with `NoOpRequested`, no transport call is issued, and neither the
transport nor the device plays any part (R106). Only the latched operands, the result and the counter change. -/
def Obligations.CmrgNoOpGuard : Prop :=
  ∀ (d : DevAddr) (o : Overrides) (s : State), s.phase = .idle → s.facade = none →
    o.mode = none → o.conv = none → o.avg = none → o.therm = none → o.pol = none → o.dr = none →
    exec (.cmrg d o) s =
      .next { s with ovr := o, latched := d, result := some .noOpRequested, epoch := s.epoch + 1 }

/-- All six overrides present: no read, exactly one write of the encoded candidate, whose fields are the six values, even if
the device holds it already; the echo is the result, or the failure (R107). Stated for the external transport, when it
answers at once. -/
def Obligations.CmrgFastPath : Prop :=
  ∀ (d : DevAddr) (m : Mode) (cv : CycleTime) (av : Averages) (th : ThermalAlert) (pl : Polarity) (dr : DataReadySelect)
    (s : State) (a : Answer) (rest : List Answer), s.phase = .idle → s.facade = none →
    s.binding = .external → s.answers = a :: rest → s.latency.headD 0 = 0 →
    exec (.cmrg d ⟨some m, some cv, some av, some th, some pl, some dr⟩) s = .next { s with
      ovr := ⟨some m, some cv, some av, some th, some pl, some dr⟩
      latched := d
      cand := cenc ⟨false, false, false, false, m, cv, av, th, pl, dr⟩
      result := some (match a with | .ok e => .reg e | .fail => .transportFailure)
      answers := rest
      latency := s.latency.tail
      call := none
      history := s.history ++ [⟨.wr d 0x01#8 (cenc ⟨false, false, false, false, m, cv, av, th, pl, dr⟩), a⟩]
      epoch := s.epoch + 1 }

/-- One to five overrides and a read that fails: `TransportFailure`, one failed read, no write (R108). -/
def Obligations.CmrgReadFailure : Prop :=
  ∀ (d : DevAddr) (o : Overrides) (s : State) (rest : List Answer), s.phase = .idle → s.facade = none →
    1 ≤ o.count → o.count ≤ 5 → s.binding = .external → s.answers = .fail :: rest → s.latency.headD 0 = 0 →
    exec (.cmrg d o) s = .next { s with
      ovr := o, latched := d, result := some .transportFailure, answers := rest, latency := s.latency.tail, call := none,
      history := s.history ++ [⟨.rd d 0x01#8, .fail⟩], epoch := s.epoch + 1 }

/-- The merge replaces exactly the fields an override is supplied for; the flags are those of the current configuration
(R109). -/
def Obligations.MergeReplacesOverriddenFields : Prop :=
  ∀ (o : Overrides) (c : Configuration),
    (∀ v, o.mode = some v → (o.merge c).mode = v) ∧ (o.mode = none → (o.merge c).mode = c.mode) ∧
    (∀ v, o.conv = some v → (o.merge c).conv = v) ∧ (o.conv = none → (o.merge c).conv = c.conv) ∧
    (∀ v, o.avg = some v → (o.merge c).avg = v) ∧ (o.avg = none → (o.merge c).avg = c.avg) ∧
    (∀ v, o.therm = some v → (o.merge c).therm = v) ∧ (o.therm = none → (o.merge c).therm = c.therm) ∧
    (∀ v, o.pol = some v → (o.merge c).pol = v) ∧ (o.pol = none → (o.merge c).pol = c.pol) ∧
    (∀ v, o.dr = some v → (o.merge c).dr = v) ∧ (o.dr = none → (o.merge c).dr = c.dr) ∧
    (o.merge c).highAlertFlag = c.highAlertFlag ∧ (o.merge c).lowAlertFlag = c.lowAlertFlag ∧
    (o.merge c).dataReadyFlag = c.dataReadyFlag ∧ (o.merge c).eepromBusyFlag = c.eepromBusyFlag

/-- One to five overrides that change nothing: one read, no write, the result is the encoded candidate, not the raw
register (R110). -/
def Obligations.CmrgShortCircuit : Prop :=
  ∀ (d : DevAddr) (o : Overrides) (s : State) (r : Register) (rest : List Answer), s.phase = .idle → s.facade = none →
    1 ≤ o.count → o.count ≤ 5 → s.binding = .external → s.answers = .ok r :: rest → s.latency.headD 0 = 0 →
    ceq (o.merge (cdec r)) (cdec r) = true →
    exec (.cmrg d o) s = .next { s with
      ovr := o, latched := d, cur := r, cand := cenc (o.merge (cdec r)),
      result := some (.reg (cenc (o.merge (cdec r)))), answers := rest, latency := s.latency.tail, call := none,
      history := s.history ++ [⟨.rd d 0x01#8, .ok r⟩], epoch := s.epoch + 1 }

/-- One to five overrides that change something: one read, then one write of the encoded candidate; the echo is the result,
or the failure (R111). -/
def Obligations.CmrgRealUpdate : Prop :=
  ∀ (d : DevAddr) (o : Overrides) (s : State) (r : Register) (a : Answer) (rest : List Answer),
    s.phase = .idle → s.facade = none →
    1 ≤ o.count → o.count ≤ 5 → s.binding = .external → s.answers = .ok r :: a :: rest →
    s.latency.headD 0 = 0 → s.latency.tail.headD 0 = 0 →
    ceq (o.merge (cdec r)) (cdec r) = false →
    exec (.cmrg d o) s = .next { s with
      ovr := o, latched := d, cur := r, cand := cenc (o.merge (cdec r)),
      result := some (match a with | .ok e => .reg e | .fail => .transportFailure),
      answers := rest, latency := s.latency.tail.tail, call := none,
      history := s.history ++ [⟨.rd d 0x01#8, .ok r⟩, ⟨.wr d 0x01#8 (cenc (o.merge (cdec r))), a⟩],
      epoch := s.epoch + 1 }

/-- The transitions out of IDLE when the transport does not answer at once, because the call has a delay or because no
answer is listed: the operands are latched and the one request of R117 is outstanding. That no result stands at the ports
from acceptance on (`result := none`) is the model's choice (log 2), not R117's. -/
def Obligations.CmrgAcceptanceIssuesRequest : Prop :=
  ∀ (d : DevAddr) (o : Overrides) (s : State) (n : Nat), s.phase = .idle → s.facade = none → s.latency.headD 0 = n →
    (1 ≤ n ∨ (s.binding = .external ∧ s.answers = [])) →
    (o.count = 6 → exec (.cmrg d o) s = .next { s with
      ovr := o, latched := d, result := none, phase := .wrWait, cand := cenc (o.merge blankConfiguration),
      latency := s.latency.tail,
      call := some ⟨.wr d 0x01#8 (cenc (o.merge blankConfiguration)), n⟩ }) ∧
    (1 ≤ o.count → o.count ≤ 5 → exec (.cmrg d o) s = .next { s with
      ovr := o, latched := d, result := none, phase := .rdWait, latency := s.latency.tail,
      call := some ⟨.rd d 0x01#8, n⟩ })

/-- The transitions out of RD_WAIT and WR_WAIT, in a step in which the external transport answers and what is presented, if
anything, waits (R117). A CMRG that a SETCFG delegates makes the same transitions, whatever the transport, and the SETCFG
ends with its result in the step in which it ends (R130; the result stays at CORE's ports by log 9). -/
def Obligations.PhaseTransitionsOnAnswer : Prop :=
  (∀ (s : State) (a : Answer) (rest : List Answer) (req : Request) (n : Nat), s.facade = none →
    nothingElsePresented s = true → s.binding = .external → s.answers = a :: rest → s.call = some ⟨req, n⟩ → n ≤ 1 →
    (s.phase = .rdWait → a = .fail → step s = .next { s with
      phase := .idle, result := some .transportFailure, answers := rest, call := none,
      history := s.history ++ [⟨req, .fail⟩], epoch := s.epoch + 2 }) ∧
    (∀ r, s.phase = .rdWait → a = .ok r → cenc (s.ovr.merge (cdec r)) = cenc (cdec r) → step s = .next { s with
      phase := .idle, cur := r, cand := cenc (s.ovr.merge (cdec r)),
      result := some (.reg (cenc (s.ovr.merge (cdec r)))), answers := rest, call := none,
      history := s.history ++ [⟨req, .ok r⟩], epoch := s.epoch + 2 }) ∧
    (∀ r k, s.phase = .rdWait → a = .ok r → cenc (s.ovr.merge (cdec r)) ≠ cenc (cdec r) → s.latency.headD 0 = k →
      (1 ≤ k ∨ rest = []) → step s = .next { s with
        phase := .wrWait, cur := r, cand := cenc (s.ovr.merge (cdec r)), answers := rest, latency := s.latency.tail,
        call := some ⟨.wr s.latched 0x01#8 (cenc (s.ovr.merge (cdec r))), k⟩,
        history := s.history ++ [⟨req, .ok r⟩], epoch := s.epoch + 1 }) ∧
    (∀ r b rest', s.phase = .rdWait → a = .ok r → cenc (s.ovr.merge (cdec r)) ≠ cenc (cdec r) → s.latency.headD 0 = 0 →
      rest = b :: rest' → step s = .next { s with
        phase := .idle, cur := r, cand := cenc (s.ovr.merge (cdec r)), answers := rest', latency := s.latency.tail,
        result := some (match b with | .ok e => .reg e | .fail => .transportFailure), call := none,
        history := s.history ++ [⟨req, .ok r⟩, ⟨.wr s.latched 0x01#8 (cenc (s.ovr.merge (cdec r))), b⟩],
        epoch := s.epoch + 2 }) ∧
    (s.phase = .wrWait → a = .fail → step s = .next { s with
      phase := .idle, result := some .transportFailure, answers := rest, call := none,
      history := s.history ++ [⟨req, .fail⟩], epoch := s.epoch + 2 }) ∧
    (∀ e, s.phase = .wrWait → a = .ok e → step s = .next { s with
      phase := .idle, result := some (.reg e), answers := rest, call := none,
      history := s.history ++ [⟨req, .ok e⟩], epoch := s.epoch + 2 })) ∧
  ∀ (s : State) (o : Overrides), s.facade = some (.setCfg o) → s.phase ≠ .idle → nothingElsePresented s = true →
    ∃ t, step { s with facade := none } = .next t ∧
      (t.phase ≠ .idle → step s = .next { t with facade := some (.setCfg o) }) ∧
      (∀ v, t.phase = .idle → t.result = some (.reg v) →
        step s = .next { t with facadeResult := some (.register v) }) ∧
      (t.phase = .idle → t.result = some .transportFailure →
        step s = .next { t with facadeResult := some .transportFailure }) ∧
      (t.phase = .idle → t.result = some .transportFailure ∨ ∃ v, t.result = some (.reg v))

/-- Whatever the transport, in the step that presents it a CMRG issues nothing, or one read, or one write, or one read that
succeeds and then one write; all with the command's device address at register 0x01, and what is written is a canonical
image (R113, R116 g). A call that is answered is in the history; the one that is not yet stands at the port, which the
statement names in each case, since the history alone does not show it (log 16). -/
def Obligations.CmrgCallsReadThenWriteAtMost : Prop :=
  ∀ (d : DevAddr) (o : Overrides) (s : State), s.phase = .idle → s.facade = none →
    ∃ t evs, exec (.cmrg d o) s = .next t ∧ t.history = s.history ++ evs ∧
      ((o.count = 0 ∧ evs = [] ∧ t.phase = .idle ∧ t.call = s.call) ∨
       (o.count = 6 ∧ ∃ w, canonicalCfg w = true ∧
         ((∃ n, evs = [] ∧ t.phase = .wrWait ∧ t.call = some ⟨.wr d 0x01#8 w, n⟩) ∨
          (∃ a, evs = [⟨.wr d 0x01#8 w, a⟩] ∧ t.phase = .idle ∧ t.call = none))) ∨
       (1 ≤ o.count ∧ o.count ≤ 5 ∧
         ((∃ n, evs = [] ∧ t.phase = .rdWait ∧ t.call = some ⟨.rd d 0x01#8, n⟩) ∨
          (∃ a, evs = [⟨.rd d 0x01#8, a⟩] ∧ t.phase = .idle ∧ t.call = none) ∨
          (∃ r w n, canonicalCfg w = true ∧ evs = [⟨.rd d 0x01#8, .ok r⟩] ∧ t.phase = .wrWait ∧
            t.call = some ⟨.wr d 0x01#8 w, n⟩) ∨
          ∃ r w a, canonicalCfg w = true ∧ evs = [⟨.rd d 0x01#8, .ok r⟩, ⟨.wr d 0x01#8 w, a⟩] ∧ t.phase = .idle ∧
            t.call = none)))

/-- Flags and reserved bits in the value read lead to the same decision and the same value to write (R116 c). -/
def Obligations.CmrgIgnoresFlagsAndReservedBits : Prop :=
  ∀ (o : Overrides) (r x : Register), x &&& 0x0FFC#16 = 0#16 →
    cenc (o.merge (cdec (r ^^^ x))) = cenc (o.merge (cdec r)) ∧ cenc (cdec (r ^^^ x)) = cenc (cdec r)

/-- What a CMRG leaves unchanged, whatever the transport does: DEVADDR, the Facade, which transport is bound, what is
presented next, and every register of the stub's store but the one at the address CMRG writes to; with no override
present, the whole store, the port and the history (R53, R106, R113). -/
def Obligations.CmrgLeavesTheRestUnchanged : Prop :=
  ∀ (d : DevAddr) (o : Overrides) (s t : State), s.phase = .idle → s.facade = none → exec (.cmrg d o) s = .next t →
    t.devaddr = s.devaddr ∧ t.facade = none ∧ t.facadeResult = s.facadeResult ∧ t.binding = s.binding ∧
    t.inputs = s.inputs ∧ t.ovr = o ∧ t.latched = d ∧
    (∀ a, a ≠ addrCfg.toNat → t.store.read a = s.store.read a) ∧
    (o.count = 0 → t.store = s.store ∧ t.call = s.call ∧ t.history = s.history ∧ t.cur = s.cur ∧ t.cand = s.cand)

/-- Under `EchoEqualsWritten` the result of a successful CMRG is a canonical image that decodes to the candidate (R42,
R114). -/
def Obligations.CmrgResultIsCandidateUnderEcho : Prop :=
  ∀ (d : DevAddr) (o : Overrides) (s t : State) (v : Register), s.phase = .idle → s.facade = none →
    exec (.cmrg d o) s = .next t → t.result = some (.reg v) → EchoEqualsWritten t.history →
    canonicalCfg v = true ∧
    ∃ evs, t.history = s.history ++ evs ∧
      ((o.count = 6 ∧ ceq (cdec v) (o.merge blankConfiguration) = true) ∨
       ∃ r, (⟨.rd d 0x01#8, .ok r⟩ : Event) ∈ evs ∧ ceq (cdec v) (o.merge (cdec r)) = true)

/-- With the reference stub and no failure, a CMRG with at least one override leaves `CFGR` holding the old writable fields
with exactly the overridden ones replaced, and no other register of the store changed (R54, R49, R165). With no delay both
calls are answered in the step that presents the command, so nothing can come between them;
SingleWriterPreventsLostUpdates is the claim where something can. -/
def Obligations.CmrgUpdatesStubRegister : Prop :=
  ∀ (d : DevAddr) (o : Overrides) (s : State), s.phase = .idle → s.facade = none → s.binding = .stub →
    s.failScript = [] → s.latency = [] → s.store.wf = true → 1 ≤ o.count →
    ∃ t, exec (.cmrg d o) s = .next t ∧
      t.result = some (.reg (cenc (o.merge (cdec (s.store.read 1))))) ∧
      ceq (cdec (t.store.read 1)) (o.merge (cdec (s.store.read 1))) = true ∧
      ∀ a, a ≠ 1 → t.store.read a = s.store.read a

/-- A transport that never answers: the operation never returns; however long the run, the engine waits, no result stands
(at the ports: log 2) and no event is recorded (of a call not answered: log 16) (R117, U10). -/
def Obligations.CmrgNeverReturnsUnanswered : Prop :=
  ∀ (d : DevAddr) (o : Overrides) (s t : State) (n : Nat), s.phase = .idle → s.facade = none → s.inputs = [] →
    s.binding = .external → s.answers = [] → 1 ≤ o.count → exec (.cmrg d o) s = .next t →
    ∃ u, Sys2Proof.core.run n t = .next u ∧ u.phase ≠ .idle ∧ u.result = none ∧ u.history = s.history

/-- The engine and the function are the same operation: presented to an idle block, a CMRG ends, after some number of
steps and whatever the delays of the calls, with the result and the events that R112's function of the transport's answers
gives (R21, R112). -/
def Obligations.MergeEngineRefinesFunction : Prop :=
  ∀ (d : DevAddr) (o : Overrides) (s : State) (r : Result) (evs : List Event), MachineInv s → s.phase = .idle →
    s.facade = none → s.binding = .external → s.inputs = [.command (encode (.cmrg d o))] → cmrgFunction d o s.answers = some (r, evs) →
    ∃ (n : Nat) (t : State), Sys2Proof.core.run n s = .next t ∧ t.phase = .idle ∧ t.facade = none ∧ t.call = none ∧
      t.result = some r ∧ t.history = s.history ++ evs ∧ t.store = s.store ∧ t.devaddr = s.devaddr

/-- Nothing a previous operation read or wrote influences an operation: two idle states that differ only in what earlier
operations left give the same result, the same phase, the same calls and the same effect on the transport (R20). -/
def Obligations.OperationsKeepNothing : Prop :=
  ∀ (i : Instr) (s : State) (ov : Overrides) (cu ca : Register) (la : DevAddr) (re : Option Result)
    (fr : Option FacadeResult) (hi : List Event) (ep : Nat), s.phase = .idle → s.facade = none →
    ∃ t t' evs,
      exec i s = .next t ∧
      exec i { s with ovr := ov, cur := cu, cand := ca, latched := la, result := re, facadeResult := fr,
                      history := hi, epoch := ep } = .next t' ∧
      t.phase = t'.phase ∧ t.result = t'.result ∧ t.call = t'.call ∧ t.answers = t'.answers ∧ t.latency = t'.latency ∧
      t.store = t'.store ∧ t.failScript = t'.failScript ∧ t.history = s.history ++ evs ∧ t'.history = hi ++ evs

/-- Which operation can fail how: the codec operations never; CMRG never with anything but `NoOpRequested`, and that exactly
when no override is present, or `TransportFailure`, and that only after a call that failed (R143). -/
def Obligations.OperationsFailOnlyAsListed : Prop :=
  ∀ (i : Instr) (s t : State), s.phase = .idle → s.facade = none → exec i s = .next t →
    (t.result = some .noOpRequested → ∃ d o, i = .cmrg d o ∧ o.count = 0) ∧
    (∀ d o, i = .cmrg d o → o.count = 0 → t.result = some .noOpRequested) ∧
    (t.result = some .transportFailure →
      (∃ d o, i = .cmrg d o ∧ 1 ≤ o.count) ∧ ∃ evs e, t.history = s.history ++ evs ∧ e ∈ evs ∧ e.outcome = .fail)

/-- What the codec operations leave unchanged: everything but the result (and the model's counter); no transport call is
issued, no flag exists to be set, no failure is given (R89, R99). -/
def Obligations.CodecOperationsTouchNothingElse : Prop :=
  ∀ (i : Instr) (s : State), s.phase = .idle → s.facade = none → (∀ d o, i ≠ .cmrg d o) →
    ∃ t, exec i s = .next t ∧ t.statusPort = 0b00#2 ∧ t = { s with result := t.result, epoch := t.epoch } ∧
      ∀ a, t.store.read a = s.store.read a

/-- The result word: status in [33:32], the operation's output port in [31:0] with zeros above it (R66, R63); and the ports
themselves, each with the value its operation gave it: status, f_out, reg_out, rec_out, eq_out (R22). Nothing is said of a
port that the last operation does not write: there it holds no defined value (log 2). -/
def Obligations.ResultWordLayout : Prop :=
  ∀ s : State,
    (∀ f, s.result = some (.float f) → s.statusPort = 0b00#2 ∧ s.fOut = f ∧
      s.res.extractLsb' 32 2 = 0b00#2 ∧ s.res.extractLsb' 0 32 = f) ∧
    (∀ r, s.result = some (.reg r) → s.statusPort = 0b00#2 ∧ s.regOut = r ∧
      s.res.extractLsb' 32 2 = 0b00#2 ∧ s.res.extractLsb' 16 16 = 0#16 ∧ s.res.extractLsb' 0 16 = r) ∧
    (∀ c, s.result = some (.cfg c) → s.statusPort = 0b00#2 ∧ s.recOut = packRecord c ∧
      s.res.extractLsb' 32 2 = 0b00#2 ∧ s.res.extractLsb' 16 16 = 0#16 ∧ s.res.extractLsb' 0 16 = packRecord c) ∧
    (∀ b, s.result = some (.eq b) → s.statusPort = 0b00#2 ∧ s.eqOut = (if b then 1#1 else 0#1) ∧
      s.res.extractLsb' 32 2 = 0b00#2 ∧ s.res.extractLsb' 1 31 = 0#31 ∧ s.res.getLsbD 0 = b) ∧
    (s.result = some .noOpRequested → s.statusPort = 0b01#2 ∧ s.res.extractLsb' 32 2 = 0b01#2) ∧
    (s.result = some .transportFailure → s.statusPort = 0b10#2 ∧ s.res.extractLsb' 32 2 = 0b10#2)

/-! ### The transport -/

/-- The reference stub: a call the script fails answers `Fail` and leaves the store; else a read answers the register and a
write stores the value, echoes it, and leaves every other register; one entry of the script is used per call (R54), in the
model when the call is answered (logs 19 and 20). -/
def Obligations.StubFollowsItsScript : Prop :=
  ∀ (s : State) (d : DevAddr) (a : RegAddr) (v : Register), s.binding = .stub → s.store.wf = true →
    (s.failScript.headD false = true → ∀ req, s.serve req = some (.fail, { s with
      failScript := s.failScript.tail, call := none, history := s.history ++ [⟨req, .fail⟩] })) ∧
    (s.failScript.headD false = false →
      s.serve (.rd d a) = some (.ok (s.store.read a.toNat), { s with
        failScript := s.failScript.tail, call := none,
        history := s.history ++ [⟨.rd d a, .ok (s.store.read a.toNat)⟩] }) ∧
      ∃ m, s.serve (.wr d a v) = some (.ok v, { s with
        store := m, failScript := s.failScript.tail, call := none, history := s.history ++ [⟨.wr d a v, .ok v⟩] }) ∧
        m.wf = true ∧ m.read a.toNat = v ∧ ∀ b, b ≠ a.toNat → m.read b = s.store.read b)

/-! ### The Facade -/

/-- GETTEMP: one read of register 0x00; the decoded temperature, or on failure the sentinel, which is the decoding of the
least image, -256.0; never a failure (R126, R127). -/
def Obligations.GetTempReadsOrGivesSentinel : Prop :=
  (∀ (s : State) (a : Answer) (rest : List Answer), s.phase = .idle → s.facade = none → s.binding = .external →
    s.answers = a :: rest → s.latency.headD 0 = 0 →
    ∃ t, execPseudo .getTemp s = .next t ∧
      t.facadeResult = some (.temperature (match a with | .ok r => tdec r | .fail => 0xC3800000#32)) ∧
      t.history = s.history ++ [⟨.rd s.devaddr 0x00#8, a⟩] ∧ t.answers = rest ∧ t.phase = .idle ∧ t.facade = none ∧
      t.call = none ∧ t.store = s.store ∧ t.devaddr = s.devaddr) ∧
  tdec 0x8000#16 = 0xC3800000#32 ∧ floatValue 0xC3800000#32 = -256

/-- GETID, GETCFGRAW and GETCFG: one read of register 0x0F or 0x01; the raw register, or its Configuration, or
`TransportFailure` (R128, R129). Only the fields named change. That CDEC's result is left at CORE's ports (`result`) when
GETCFG decodes is the model's choice (log 9). -/
def Obligations.FacadeReadsReturnRegisterOrFailure : Prop :=
  ∀ (s : State) (a : Answer) (rest : List Answer), s.phase = .idle → s.facade = none → s.binding = .external →
    s.answers = a :: rest → s.latency.headD 0 = 0 →
    execPseudo .getId s = .next { s with
      facadeResult := some (match a with | .ok r => .register r | .fail => .transportFailure),
      answers := rest, latency := s.latency.tail, call := none,
      history := s.history ++ [⟨.rd s.devaddr 0x0F#8, a⟩] } ∧
    execPseudo .getCfgRaw s = .next { s with
      facadeResult := some (match a with | .ok r => .register r | .fail => .transportFailure),
      answers := rest, latency := s.latency.tail, call := none,
      history := s.history ++ [⟨.rd s.devaddr 0x01#8, a⟩] } ∧
    (∀ r, a = .ok r → execPseudo .getCfg s = .next { s with
      facadeResult := some (.configuration (cdec r)), result := some (.cfg (cdec r)), answers := rest,
      latency := s.latency.tail, call := none, history := s.history ++ [⟨.rd s.devaddr 0x01#8, .ok r⟩],
      epoch := s.epoch + 1 }) ∧
    (a = .fail → execPseudo .getCfg s = .next { s with
      facadeResult := some .transportFailure, answers := rest, latency := s.latency.tail, call := none,
      history := s.history ++ [⟨.rd s.devaddr 0x01#8, .fail⟩] })

/-- SETCFG is the CMRG with `DEVADDR`: where the CMRG has ended, with the result handed on; where it is in flight, in
flight (R130). That the rest of the state is the CMRG's too, its result at CORE's ports included, is the model's choice
(log 9), as is `facadeResult := none` while in flight (log 18). -/
def Obligations.SetCfgDelegatesToCmrg : Prop :=
  ∀ (o : Overrides) (s : State), s.phase = .idle → s.facade = none →
    ∃ t, exec (.cmrg s.devaddr o) s = .next t ∧
      (t.phase ≠ .idle →
        execPseudo (.setCfg o) s = .next { t with facade := some (.setCfg o), facadeResult := none }) ∧
      (∀ v, t.phase = .idle → t.result = some (.reg v) →
        execPseudo (.setCfg o) s = .next { t with facadeResult := some (.register v) }) ∧
      (t.phase = .idle → t.result = some .noOpRequested →
        execPseudo (.setCfg o) s = .next { t with facadeResult := some .noOpRequested }) ∧
      (t.phase = .idle → t.result = some .transportFailure →
        execPseudo (.setCfg o) s = .next { t with facadeResult := some .transportFailure })

/-- SETHI and SETLO: no read, one unconditional write of TENC of the operand to register 0x02 or 0x03; the echo, or
`TransportFailure` (R131). That TENC's register is left at CORE's ports (`result`) is the model's choice (log 9), not
R131's. -/
def Obligations.SetLimitsWriteUnconditionally : Prop :=
  ∀ (x : FloatBits) (s : State) (a : Answer) (rest : List Answer), s.phase = .idle → s.facade = none →
    s.binding = .external → s.answers = a :: rest → s.latency.headD 0 = 0 →
    execPseudo (.setHi x) s = .next { s with
      facadeResult := some (match a with | .ok e => .register e | .fail => .transportFailure),
      result := some (.reg (tenc x)), answers := rest, latency := s.latency.tail, call := none,
      history := s.history ++ [⟨.wr s.devaddr 0x02#8 (tenc x), a⟩], epoch := s.epoch + 1 } ∧
    execPseudo (.setLo x) s = .next { s with
      facadeResult := some (match a with | .ok e => .register e | .fail => .transportFailure),
      result := some (.reg (tenc x)), answers := rest, latency := s.latency.tail, call := none,
      history := s.history ++ [⟨.wr s.devaddr 0x03#8 (tenc x), a⟩], epoch := s.epoch + 1 }

/-- SETADDR: DEVADDR takes a member of DEVADDR_SET, no transport call is issued; another address is refused (R132, U7).
SETADDR returns no value; that the model records its return (`facadeResult := some .readdressed`) is the model's choice
(log 18). -/
def Obligations.SetAddrReaddresses : Prop :=
  ∀ (a : DevAddr) (s : State), s.phase = .idle → s.facade = none →
    (a ∈ Config.devAddrSet →
      execPseudo (.setAddr a) s = .next { s with devaddr := a, facadeResult := some .readdressed }) ∧
    (a ∉ Config.devAddrSet → execPseudo (.setAddr a) s = .refused .devaddrOutsideSet)

/-- What a Facade operation leaves unchanged, whatever the transport does: a read and a re-addressing leave every register
of the stub's store, SETHI, SETLO and SETCFG every register but their own; DEVADDR is left by all but SETADDR, and the merge
engine's registers by all but SETCFG (R53, R125). -/
def Obligations.FacadeLeavesTheRestUnchanged : Prop :=
  ∀ (p : Pseudo) (s t : State), s.phase = .idle → s.facade = none → execPseudo p s = .next t →
    t.binding = s.binding ∧ t.inputs = s.inputs ∧
    (∀ a, (∀ x, p = .setHi x → a ≠ addrHigh.toNat) → (∀ x, p = .setLo x → a ≠ addrLow.toNat) →
      (∀ o, p = .setCfg o → a ≠ addrCfg.toNat) → t.store.read a = s.store.read a) ∧
    ((∀ d, p ≠ .setAddr d) → t.devaddr = s.devaddr) ∧
    ((∀ o, p ≠ .setCfg o) → t.phase = .idle ∧ t.ovr = s.ovr ∧ t.cur = s.cur ∧ t.cand = s.cand ∧ t.latched = s.latched)

/-- DEVADDR changed while an operation is in flight is refused (R163, U6). That the owner's change between operations is
SETADDR is the model's deduction (log 10), and the record of its return the model's choice (log 18). -/
def Obligations.DevaddrMutationInFlightRefused : Prop :=
  ∀ (a : DevAddr) (s : State) (rest : List Input), s.inputs = .mutateDevaddr a :: rest →
    (s.phase ≠ .idle ∨ s.facade.isSome = true → step s = .refused .devaddrChangedInFlight) ∧
    (s.phase = .idle → s.facade = none → a ∈ Config.devAddrSet →
      step s = .next { s with inputs := rest, devaddr := a, facadeResult := some .readdressed })

/-! ### Reset and the invariant -/

/-- A reset at any moment, a CMRG in flight included: the operation is abandoned with no result, the engine is in IDLE and
the history is empty; the device's store, DEVADDR and the transport are not touched, and the block accepts a command at once
(R160). That what the transport holds, the script and the answers, is as before, the abandoned call's entry included, and
that DEVADDR is kept are the model's choices (logs 20 and 9), as is the store with an abandoned write (log 5). -/
def Obligations.ResetAbandonsOperation : Prop :=
  ∀ (s : State) (rest : List Input), s.inputs = .reset :: rest →
    ∃ t, step s = .next t ∧ t.phase = .idle ∧ t.call = none ∧ t.result = none ∧ t.facade = none ∧ t.history = [] ∧
      t.store = s.store ∧ t.devaddr = s.devaddr ∧ t.binding = s.binding ∧ t.answers = s.answers ∧
      t.latency = s.latency ∧ t.failScript = s.failScript ∧ t.inputs = rest ∧
      ∀ r, ∃ u, exec (.tdec r) t = .next u ∧ u.result = some (.float (tdec r))

/-- After reset the engine is in IDLE, no operation is in flight, no result stands, the history is empty (R37, R160), and
the invariant holds. The value of DEVADDR there is the model's choice (log 3), as is the store (log 5). -/
def Obligations.ResetIsIdleAndMeetsInvariant : Prop :=
  MachineInv State.reset ∧ State.reset.phase = .idle ∧ State.reset.call = none ∧ State.reset.facade = none ∧
    State.reset.result = none ∧ State.reset.history = []

/-- The invariant is kept by every step, whatever is presented and whatever the transport answers: the stub's store keeps
its canonical form, DEVADDR stays in DEVADDR_SET, only the registers of R53 are reached and only canonical images are
written to CFGR (R116 g), and the port is coherent with the phase (R117). -/
def Obligations.StepKeepsInvariant : Prop := ∀ s t : State, MachineInv s → step s = .next t → MachineInv t

/-- A step refuses only a reserved word presented to an idle block, an address outside the set, or a change of DEVADDR while
an operation is in flight; a failure is a result and the block goes on (R147). -/
def Obligations.StepRefusesOnlyWhatIsReserved : Prop :=
  ∀ (s : State) (r : Refusal), step s = .refused r →
    (∃ w rest e, s.inputs = .command w :: rest ∧ s.phase = .idle ∧ s.facade = none ∧ decode w = .error e ∧
      r = .reservedCommand e) ∨
    (∃ a rest, (s.inputs = .pseudo (.setAddr a) :: rest ∨ s.inputs = .mutateDevaddr a :: rest) ∧ s.phase = .idle ∧
      s.facade = none ∧ a ∉ Config.devAddrSet ∧ r = .devaddrOutsideSet) ∨
    (∃ a rest, s.inputs = .mutateDevaddr a :: rest ∧ (s.phase ≠ .idle ∨ s.facade.isSome = true) ∧
      r = .devaddrChangedInFlight)

/-- Only SETADDR, presented as such or as the owner's change, gives DEVADDR another value (R33, R132, R163; the owner's
change as SETADDR is log 10). -/
def Obligations.OnlySetAddrChangesDevaddr : Prop :=
  ∀ s t : State, step s = .next t → t.devaddr ≠ s.devaddr →
    ∃ rest, (s.inputs = .pseudo (.setAddr t.devaddr) :: rest ∨ s.inputs = .mutateDevaddr t.devaddr :: rest) ∧
      s.phase = .idle ∧ s.facade = none ∧ t.devaddr ∈ Config.devAddrSet

/-- The event history only grows, by at most two calls in a step, and only a reset empties it. R36 gives the history of an
operation; that the model keeps one history across operations until a reset, and enters a call when it is answered, is the
model's choice (log 16). -/
def Obligations.HistoryOnlyGrows : Prop :=
  ∀ s t : State, step s = .next t →
    (∃ evs, t.history = s.history ++ evs ∧ evs.length ≤ 2) ∨ (t.history = [] ∧ ∃ rest, s.inputs = .reset :: rest)

/-! ### Calls that take their time -/

/-- A Facade operation issues its one call with DEVADDR at the register its rule names, and nothing more happens until the
transport answers, whether because the call has a delay or because no answer is listed (R126, R128, R129, R131); and any
operation in flight whose call is not answered waits, only the call's delay and the model's counter moving (R117, R125).
`facadeResult := none` is the model's choice (log 18), and TENC's register at CORE's ports (log 9). -/
def Obligations.FacadeIssuesOneCallAndWaits : Prop :=
  (∀ (s : State) (n : Nat), s.phase = .idle → s.facade = none → s.latency.headD 0 = n →
    (1 ≤ n ∨ (s.binding = .external ∧ s.answers = [])) →
    execPseudo .getTemp s = .next { s with
      facade := some .getTemp, facadeResult := none, latency := s.latency.tail, call := some ⟨.rd s.devaddr 0x00#8, n⟩ } ∧
    execPseudo .getId s = .next { s with
      facade := some .getId, facadeResult := none, latency := s.latency.tail, call := some ⟨.rd s.devaddr 0x0F#8, n⟩ } ∧
    execPseudo .getCfgRaw s = .next { s with
      facade := some .getCfgRaw, facadeResult := none, latency := s.latency.tail,
      call := some ⟨.rd s.devaddr 0x01#8, n⟩ } ∧
    execPseudo .getCfg s = .next { s with
      facade := some .getCfg, facadeResult := none, latency := s.latency.tail, call := some ⟨.rd s.devaddr 0x01#8, n⟩ } ∧
    (∀ x, execPseudo (.setHi x) s = .next { s with
      facade := some (.setHi x), facadeResult := none, latency := s.latency.tail, result := some (.reg (tenc x)),
      call := some ⟨.wr s.devaddr 0x02#8 (tenc x), n⟩, epoch := s.epoch + 1 }) ∧
    ∀ x, execPseudo (.setLo x) s = .next { s with
      facade := some (.setLo x), facadeResult := none, latency := s.latency.tail, result := some (.reg (tenc x)),
      call := some ⟨.wr s.devaddr 0x03#8 (tenc x), n⟩, epoch := s.epoch + 1 }) ∧
  ∀ (s : State) (req : Request) (n : Nat), s.phase ≠ .idle ∨ s.facade.isSome = true → nothingElsePresented s = true →
    s.call = some ⟨req, n⟩ → (2 ≤ n ∨ (s.binding = .external ∧ s.answers = [])) →
    step s = .next { s with call := some ⟨req, n - 1⟩, epoch := s.epoch + 1 }

/-- A Facade operation in flight whose call the external transport answers in a later step returns what its rule says: the
temperature or the sentinel (R126, R127), the register (R128, R129), the Configuration (R129), the echo (R131), or
`TransportFailure`; only the fields named change. That TDEC's and CDEC's results are left at CORE's ports (`result`) is the
model's choice (log 9). -/
def Obligations.FacadeReturnsWhenAnswered : Prop :=
  ∀ (s : State) (a : Answer) (rest : List Answer) (req : Request) (n : Nat), s.phase = .idle →
    nothingElsePresented s = true → s.binding = .external → s.answers = a :: rest → s.call = some ⟨req, n⟩ → n ≤ 1 →
    (∀ r, s.facade = some .getTemp → a = .ok r → step s = .next { s with
      facade := none, facadeResult := some (.temperature (tdec r)), result := some (.float (tdec r)), answers := rest,
      call := none, history := s.history ++ [⟨req, .ok r⟩], epoch := s.epoch + 2 }) ∧
    (s.facade = some .getTemp → a = .fail → step s = .next { s with
      facade := none, facadeResult := some (.temperature 0xC3800000#32), answers := rest, call := none,
      history := s.history ++ [⟨req, .fail⟩], epoch := s.epoch + 1 }) ∧
    (∀ r, s.facade = some .getCfg → a = .ok r → step s = .next { s with
      facade := none, facadeResult := some (.configuration (cdec r)), result := some (.cfg (cdec r)), answers := rest,
      call := none, history := s.history ++ [⟨req, .ok r⟩], epoch := s.epoch + 2 }) ∧
    (∀ r, s.facade = some .getId ∨ s.facade = some .getCfgRaw ∨ (∃ x, s.facade = some (.setHi x) ∨ s.facade = some (.setLo x)) →
      a = .ok r → step s = .next { s with
        facade := none, facadeResult := some (.register r), answers := rest, call := none,
        history := s.history ++ [⟨req, .ok r⟩], epoch := s.epoch + 1 }) ∧
    (s.facade = some .getId ∨ s.facade = some .getCfgRaw ∨ s.facade = some .getCfg ∨
        (∃ x, s.facade = some (.setHi x) ∨ s.facade = some (.setLo x)) →
      a = .fail → step s = .next { s with
        facade := none, facadeResult := some .transportFailure, answers := rest, call := none,
        history := s.history ++ [⟨req, .fail⟩], epoch := s.epoch + 1 })

/-- No update is lost under `SingleWriter`. In a run from an idle block on the stub, in which `SingleWriter` holds (changes
of the flags, of other registers and at other moments allowed), a partial CMRG that ends with a register leaves CFGR with
the overridden fields replaced and every other writable field as CFGR held it just before the write took effect, and
returns an image of the same fields (R49, R165, R116 h). And a step from a state of the invariant in which the premise
holds keeps CFGR as the read returned it. Where the calls take effect is log 19's choice. -/
def Obligations.SingleWriterPreventsLostUpdates : Prop :=
  (∀ s t : State, MachineInv s → ReadIsCurrent s → singleWriterHere s = true → step s = .next t → ReadIsCurrent t) ∧
  ∀ (s u t : State) (n : Nat) (v : Register), MachineInv s → s.phase = .idle → s.binding = .stub → SingleWriter n s →
    Sys2Proof.core.run n s = .next u → betweenReadAndWrite u = true → step u = .next t → t.phase = .idle →
    t.result = some (.reg v) →
    ceq (cdec (t.store.read 1)) (u.ovr.merge (cdec (u.store.read 1))) = true ∧
      ceq (cdec v) (u.ovr.merge (cdec (u.store.read 1))) = true
end

