-- ==== Sys2Proof/Laws/Codec.lean ====
section
/-! SUPPORT. The bit patterns of the variants are inverse to the maps that read them, and a field reads back at its place. -/

namespace Sys2Proof

@[simp] theorem Mode.ofBits_bits (m : Mode) : Mode.ofBits? m.bits = some m := by cases m <;> rfl
@[simp] theorem CycleTime.ofBits_bits (c : CycleTime) : CycleTime.ofBits c.bits = c := by cases c <;> rfl
@[simp] theorem Averages.ofBits_bits (a : Averages) : Averages.ofBits a.bits = a := by cases a <;> rfl
@[simp] theorem ThermalAlert.ofBits_bits (t : ThermalAlert) : ThermalAlert.ofBits t.bits = t := by cases t <;> rfl
@[simp] theorem Polarity.ofBits_bits (p : Polarity) : Polarity.ofBits p.bits = p := by cases p <;> rfl
@[simp] theorem DataReadySelect.ofBits_bits (d : DataReadySelect) : DataReadySelect.ofBits d.bits = d := by
  cases d <;> rfl

@[simp] theorem CycleTime.bits_ofBits (b : BitVec 3) : (CycleTime.ofBits b).bits = b := by revert b; decide
@[simp] theorem Averages.bits_ofBits (b : BitVec 2) : (Averages.ofBits b).bits = b := by revert b; decide
@[simp] theorem ThermalAlert.bits_ofBits (b : BitVec 1) : (ThermalAlert.ofBits b).bits = b := by revert b; decide
@[simp] theorem Polarity.bits_ofBits (b : BitVec 1) : (Polarity.ofBits b).bits = b := by revert b; decide
@[simp] theorem DataReadySelect.bits_ofBits (b : BitVec 1) : (DataReadySelect.ofBits b).bits = b := by
  revert b; decide

/-- No mode has the code `0b10`. -/
theorem Mode.bits_ne_alias (m : Mode) : m.bits ≠ 0b10#2 := by cases m <;> decide

theorem Mode.ofBits_eq_some {b : BitVec 2} {m : Mode} : Mode.ofBits? b = some m ↔ m.bits = b := by
  cases m <;> revert b <;> decide

theorem Mode.ofBits_eq_none {b : BitVec 2} : Mode.ofBits? b = none ↔ b = 0b10#2 := by revert b; decide

/-- A bit of a field in its place. -/
@[simp] theorem getLsbD_field {w : Nat} (n k i : Nat) (b : BitVec w) :
    (field n k b).getLsbD i = (decide (i < n) && decide (k ≤ i) && b.getLsbD (i - k)) := by
  by_cases h : i < n <;> by_cases hk : k ≤ i <;> simp [field, BitVec.getLsbD_setWidth, h, hk]

@[simp] theorem getElem_field {w : Nat} (n k i : Nat) (b : BitVec w) (h : i < n) :
    (field n k b)[i] = (decide (k ≤ i) && b.getLsbD (i - k)) := by
  rw [← BitVec.getLsbD_eq_getElem, getLsbD_field]; simp [h]

/-- There are six fields to override. -/
theorem Overrides.count_le (o : Overrides) : o.count ≤ 6 := by
  have h : ∀ b : Bool, b.toNat ≤ 1 := by decide
  have h1 := h o.mode.isSome; have h2 := h o.conv.isSome; have h3 := h o.avg.isSome
  have h4 := h o.therm.isSome; have h5 := h o.pol.isSome; have h6 := h o.dr.isSome
  unfold Overrides.count; omega

/-! ### The fields of a packed record stand where 30_encoding.md R65 puts them -/

theorem packRecord_mode (c : Configuration) : (packRecord c).extractLsb' 10 2 = c.mode.bits := by
  apply BitVec.eq_of_getLsbD_eq
  intro i hi
  simp only [packRecord, BitVec.getLsbD_extractLsb', BitVec.getLsbD_or, getLsbD_field]
  interval_cases i <;> simp

theorem packRecord_conv (c : Configuration) : (packRecord c).extractLsb' 7 3 = c.conv.bits := by
  apply BitVec.eq_of_getLsbD_eq
  intro i hi
  simp only [packRecord, BitVec.getLsbD_extractLsb', BitVec.getLsbD_or, getLsbD_field]
  interval_cases i <;> simp

theorem packRecord_avg (c : Configuration) : (packRecord c).extractLsb' 5 2 = c.avg.bits := by
  apply BitVec.eq_of_getLsbD_eq
  intro i hi
  simp only [packRecord, BitVec.getLsbD_extractLsb', BitVec.getLsbD_or, getLsbD_field]
  interval_cases i <;> simp

theorem packRecord_therm (c : Configuration) : (packRecord c).extractLsb' 4 1 = c.therm.bits := by
  apply BitVec.eq_of_getLsbD_eq
  intro i hi
  simp only [packRecord, BitVec.getLsbD_extractLsb', BitVec.getLsbD_or, getLsbD_field]
  interval_cases i
  simp

theorem packRecord_pol (c : Configuration) : (packRecord c).extractLsb' 3 1 = c.pol.bits := by
  apply BitVec.eq_of_getLsbD_eq
  intro i hi
  simp only [packRecord, BitVec.getLsbD_extractLsb', BitVec.getLsbD_or, getLsbD_field]
  interval_cases i
  simp

theorem packRecord_dr (c : Configuration) : (packRecord c).extractLsb' 2 1 = c.dr.bits := by
  apply BitVec.eq_of_getLsbD_eq
  intro i hi
  simp only [packRecord, BitVec.getLsbD_extractLsb', BitVec.getLsbD_or, getLsbD_field]
  interval_cases i
  simp

theorem packRecord_highAlertFlag (c : Configuration) : (packRecord c).getLsbD 15 = c.highAlertFlag := by simp [packRecord]

theorem packRecord_lowAlertFlag (c : Configuration) : (packRecord c).getLsbD 14 = c.lowAlertFlag := by simp [packRecord]

theorem packRecord_dataReadyFlag (c : Configuration) : (packRecord c).getLsbD 13 = c.dataReadyFlag := by simp [packRecord]

theorem packRecord_eepromBusyFlag (c : Configuration) : (packRecord c).getLsbD 12 = c.eepromBusyFlag := by simp [packRecord]

end Sys2Proof
end

