-- ==== Sys2Proof/Laws/Memory.lean ====
section
/-! SUPPORT. The register space: a write is read back, leaves every other register, and keeps the canonical form. -/

namespace Sys2Proof.Machine

theorem Memory.wf_cons (a : Nat) (v : Register) (m : Memory) :
    Memory.wf ((a, v) :: m) = true ↔ a < 256 ∧ v ≠ Memory.unlisted ∧ Memory.above a m = true ∧ Memory.wf m = true := by
  simp [Memory.wf, and_assoc]

theorem Memory.above_cons (a b : Nat) (v : Register) (m : Memory) :
    Memory.above a ((b, v) :: m) = true ↔ a < b ∧ Memory.above a m = true := by
  simp [Memory.above]

theorem Memory.above_trans {a b : Nat} {m : Memory} (h : a < b) (hm : Memory.above b m = true) :
    Memory.above a m = true := by
  simp only [Memory.above, List.all_eq_true, decide_eq_true_eq] at *
  exact fun c hc => lt_trans h (hm c hc)

theorem Memory.read_of_above {a : Nat} {m : Memory} (h : Memory.above a m = true) : m.read a = Memory.unlisted := by
  induction m with
  | nil => rfl
  | cons c m ih =>
    obtain ⟨b, v⟩ := c
    rw [Memory.above_cons] at h
    rw [Memory.read, if_neg (by omega), ih h.2]

theorem Memory.read_put_same {a : Nat} {v : Register} {m : Memory} (h : Memory.above a m = true) :
    (Memory.put a v m).read a = v := by
  unfold Memory.put
  split
  · rename_i hv; rw [Memory.read_of_above h, hv]
  · simp [Memory.read]

theorem Memory.read_put_other {a b : Nat} {v : Register} {m : Memory} (h : b ≠ a) :
    (Memory.put a v m).read b = m.read b := by
  unfold Memory.put
  split
  · rfl
  · rw [Memory.read, if_neg h]

/-- A write is read back. -/
theorem Memory.read_write_same (m : Memory) (a : Nat) (v : Register) (hm : m.wf = true) : (m.write a v).read a = v := by
  induction m with
  | nil => exact Memory.read_put_same rfl
  | cons c m ih =>
    obtain ⟨b, u⟩ := c
    rw [Memory.wf_cons] at hm
    unfold Memory.write
    split
    · rename_i h
      exact Memory.read_put_same ((Memory.above_cons ..).2 ⟨h, Memory.above_trans h hm.2.2.1⟩)
    · split
      · rename_i h; subst h; exact Memory.read_put_same hm.2.2.1
      · rename_i h; rw [Memory.read, if_neg h, ih hm.2.2.2]

/-- A write leaves every other register. -/
theorem Memory.read_write_other (m : Memory) (a b : Nat) (v : Register) (h : b ≠ a) :
    (m.write a v).read b = m.read b := by
  induction m with
  | nil => exact Memory.read_put_other h
  | cons c m ih =>
    obtain ⟨k, u⟩ := c
    unfold Memory.write
    split
    · exact Memory.read_put_other h
    · split
      · rename_i hk; subst hk; rw [Memory.read_put_other h, Memory.read, if_neg h]
      · rw [Memory.read, Memory.read, ih]

theorem Memory.above_put {a b : Nat} {v : Register} {m : Memory} (h : a < b) (hm : Memory.above a m = true) :
    Memory.above a (Memory.put b v m) = true := by
  unfold Memory.put
  split
  · exact hm
  · exact (Memory.above_cons ..).2 ⟨h, hm⟩

theorem Memory.above_write {a b : Nat} {v : Register} {m : Memory} (h : a < b) (hm : Memory.above a m = true) :
    Memory.above a (m.write b v) = true := by
  induction m with
  | nil => exact Memory.above_put h rfl
  | cons c m ih =>
    obtain ⟨k, u⟩ := c
    have hc := (Memory.above_cons ..).1 hm
    unfold Memory.write
    split
    · exact Memory.above_put h hm
    · split
      · exact Memory.above_put h hc.2
      · exact (Memory.above_cons ..).2 ⟨hc.1, ih hc.2⟩

theorem Memory.wf_put {a : Nat} {v : Register} {m : Memory} (ha : a < 256) (h : Memory.above a m = true)
    (hm : m.wf = true) : (Memory.put a v m).wf = true := by
  unfold Memory.put
  split
  · exact hm
  · rename_i hv; exact (Memory.wf_cons ..).2 ⟨ha, hv, h, hm⟩

/-- A write keeps the canonical form. -/
theorem Memory.wf_write (m : Memory) (a : Nat) (v : Register) (ha : a < 256) (hm : m.wf = true) :
    (m.write a v).wf = true := by
  induction m with
  | nil => exact Memory.wf_put ha rfl rfl
  | cons c m ih =>
    obtain ⟨b, u⟩ := c
    have hc := (Memory.wf_cons ..).1 hm
    unfold Memory.write
    split
    · rename_i h
      exact Memory.wf_put ha ((Memory.above_cons ..).2 ⟨h, Memory.above_trans h hc.2.2.1⟩) hm
    · split
      · rename_i h; subst h; exact Memory.wf_put ha hc.2.2.1 hc.2.2.2
      · exact (Memory.wf_cons ..).2 ⟨hc.1, hc.2.1, Memory.above_write (by omega) hc.2.2.1, ih hc.2.2.2⟩

/-- The stub's store keeps its canonical form through a call. -/
theorem stubStore_wf (m : Memory) (q : Request) (hm : m.wf = true) : (stubStore m q).wf = true := by
  cases q with
  | rd d a => exact hm
  | wr d a v => exact Memory.wf_write m a.toNat v (by omega) hm

end Sys2Proof.Machine
end

