-- ==== Sys2Proof/Laws/State.lean ====
section
/-! SUPPORT. One lemma per field per shared update of the state, so that no proof unfolds a record update. -/

namespace Sys2Proof.Machine

@[simp] theorem State.issue_phase (q : Request) (s : State) : (s.issue q).phase = s.phase := rfl
@[simp] theorem State.issue_ovr (q : Request) (s : State) : (s.issue q).ovr = s.ovr := rfl
@[simp] theorem State.issue_cur (q : Request) (s : State) : (s.issue q).cur = s.cur := rfl
@[simp] theorem State.issue_cand (q : Request) (s : State) : (s.issue q).cand = s.cand := rfl
@[simp] theorem State.issue_latched (q : Request) (s : State) : (s.issue q).latched = s.latched := rfl
@[simp] theorem State.issue_result (q : Request) (s : State) : (s.issue q).result = s.result := rfl
@[simp] theorem State.issue_devaddr (q : Request) (s : State) : (s.issue q).devaddr = s.devaddr := rfl
@[simp] theorem State.issue_facade (q : Request) (s : State) : (s.issue q).facade = s.facade := rfl
@[simp] theorem State.issue_facadeResult (q : Request) (s : State) : (s.issue q).facadeResult = s.facadeResult := rfl
@[simp] theorem State.issue_call (q : Request) (s : State) : (s.issue q).call = some { req := q, left := s.latency.headD 0 } := rfl
@[simp] theorem State.issue_history (q : Request) (s : State) : (s.issue q).history = s.history := rfl
@[simp] theorem State.issue_binding (q : Request) (s : State) : (s.issue q).binding = s.binding := rfl
@[simp] theorem State.issue_answers (q : Request) (s : State) : (s.issue q).answers = s.answers := rfl
@[simp] theorem State.issue_latency (q : Request) (s : State) : (s.issue q).latency = s.latency.tail := rfl
@[simp] theorem State.issue_store (q : Request) (s : State) : (s.issue q).store = s.store := rfl
@[simp] theorem State.issue_failScript (q : Request) (s : State) : (s.issue q).failScript = s.failScript := rfl
@[simp] theorem State.issue_inputs (q : Request) (s : State) : (s.issue q).inputs = s.inputs := rfl
@[simp] theorem State.issue_epoch (q : Request) (s : State) : (s.issue q).epoch = s.epoch := rfl

@[simp] theorem State.answered_phase (q : Request) (a : Answer) (s : State) : (s.answered q a).phase = s.phase := rfl
@[simp] theorem State.answered_ovr (q : Request) (a : Answer) (s : State) : (s.answered q a).ovr = s.ovr := rfl
@[simp] theorem State.answered_cur (q : Request) (a : Answer) (s : State) : (s.answered q a).cur = s.cur := rfl
@[simp] theorem State.answered_cand (q : Request) (a : Answer) (s : State) : (s.answered q a).cand = s.cand := rfl
@[simp] theorem State.answered_latched (q : Request) (a : Answer) (s : State) : (s.answered q a).latched = s.latched := rfl
@[simp] theorem State.answered_result (q : Request) (a : Answer) (s : State) : (s.answered q a).result = s.result := rfl
@[simp] theorem State.answered_devaddr (q : Request) (a : Answer) (s : State) : (s.answered q a).devaddr = s.devaddr := rfl
@[simp] theorem State.answered_facade (q : Request) (a : Answer) (s : State) : (s.answered q a).facade = s.facade := rfl
@[simp] theorem State.answered_facadeResult (q : Request) (a : Answer) (s : State) : (s.answered q a).facadeResult = s.facadeResult := rfl
@[simp] theorem State.answered_call (q : Request) (a : Answer) (s : State) : (s.answered q a).call = none := rfl
@[simp] theorem State.answered_history (q : Request) (a : Answer) (s : State) : (s.answered q a).history = s.history ++ [{ req := q, outcome := a }] := rfl
@[simp] theorem State.answered_binding (q : Request) (a : Answer) (s : State) : (s.answered q a).binding = s.binding := rfl
@[simp] theorem State.answered_answers (q : Request) (a : Answer) (s : State) : (s.answered q a).answers = s.answers := rfl
@[simp] theorem State.answered_latency (q : Request) (a : Answer) (s : State) : (s.answered q a).latency = s.latency := rfl
@[simp] theorem State.answered_store (q : Request) (a : Answer) (s : State) : (s.answered q a).store = s.store := rfl
@[simp] theorem State.answered_failScript (q : Request) (a : Answer) (s : State) : (s.answered q a).failScript = s.failScript := rfl
@[simp] theorem State.answered_inputs (q : Request) (a : Answer) (s : State) : (s.answered q a).inputs = s.inputs := rfl
@[simp] theorem State.answered_epoch (q : Request) (a : Answer) (s : State) : (s.answered q a).epoch = s.epoch := rfl

@[simp] theorem State.tick_phase (s : State) : (s.tick).phase = s.phase := rfl
@[simp] theorem State.tick_ovr (s : State) : (s.tick).ovr = s.ovr := rfl
@[simp] theorem State.tick_cur (s : State) : (s.tick).cur = s.cur := rfl
@[simp] theorem State.tick_cand (s : State) : (s.tick).cand = s.cand := rfl
@[simp] theorem State.tick_latched (s : State) : (s.tick).latched = s.latched := rfl
@[simp] theorem State.tick_result (s : State) : (s.tick).result = s.result := rfl
@[simp] theorem State.tick_devaddr (s : State) : (s.tick).devaddr = s.devaddr := rfl
@[simp] theorem State.tick_facade (s : State) : (s.tick).facade = s.facade := rfl
@[simp] theorem State.tick_facadeResult (s : State) : (s.tick).facadeResult = s.facadeResult := rfl
@[simp] theorem State.tick_call (s : State) : (s.tick).call = s.call := rfl
@[simp] theorem State.tick_history (s : State) : (s.tick).history = s.history := rfl
@[simp] theorem State.tick_binding (s : State) : (s.tick).binding = s.binding := rfl
@[simp] theorem State.tick_answers (s : State) : (s.tick).answers = s.answers := rfl
@[simp] theorem State.tick_latency (s : State) : (s.tick).latency = s.latency := rfl
@[simp] theorem State.tick_store (s : State) : (s.tick).store = s.store := rfl
@[simp] theorem State.tick_failScript (s : State) : (s.tick).failScript = s.failScript := rfl
@[simp] theorem State.tick_inputs (s : State) : (s.tick).inputs = s.inputs := rfl
@[simp] theorem State.tick_epoch (s : State) : (s.tick).epoch = s.epoch + 1 := rfl

@[simp] theorem State.report_phase (r : FacadeResult) (s : State) : (s.report r).phase = s.phase := rfl
@[simp] theorem State.report_ovr (r : FacadeResult) (s : State) : (s.report r).ovr = s.ovr := rfl
@[simp] theorem State.report_cur (r : FacadeResult) (s : State) : (s.report r).cur = s.cur := rfl
@[simp] theorem State.report_cand (r : FacadeResult) (s : State) : (s.report r).cand = s.cand := rfl
@[simp] theorem State.report_latched (r : FacadeResult) (s : State) : (s.report r).latched = s.latched := rfl
@[simp] theorem State.report_result (r : FacadeResult) (s : State) : (s.report r).result = s.result := rfl
@[simp] theorem State.report_devaddr (r : FacadeResult) (s : State) : (s.report r).devaddr = s.devaddr := rfl
@[simp] theorem State.report_facade (r : FacadeResult) (s : State) : (s.report r).facade = s.facade := rfl
@[simp] theorem State.report_facadeResult (r : FacadeResult) (s : State) : (s.report r).facadeResult = some r := rfl
@[simp] theorem State.report_call (r : FacadeResult) (s : State) : (s.report r).call = s.call := rfl
@[simp] theorem State.report_history (r : FacadeResult) (s : State) : (s.report r).history = s.history := rfl
@[simp] theorem State.report_binding (r : FacadeResult) (s : State) : (s.report r).binding = s.binding := rfl
@[simp] theorem State.report_answers (r : FacadeResult) (s : State) : (s.report r).answers = s.answers := rfl
@[simp] theorem State.report_latency (r : FacadeResult) (s : State) : (s.report r).latency = s.latency := rfl
@[simp] theorem State.report_store (r : FacadeResult) (s : State) : (s.report r).store = s.store := rfl
@[simp] theorem State.report_failScript (r : FacadeResult) (s : State) : (s.report r).failScript = s.failScript := rfl
@[simp] theorem State.report_inputs (r : FacadeResult) (s : State) : (s.report r).inputs = s.inputs := rfl
@[simp] theorem State.report_epoch (r : FacadeResult) (s : State) : (s.report r).epoch = s.epoch := rfl

@[simp] theorem State.changeDevice_phase (a : RegAddr) (v : Register) (s : State) : (s.changeDevice a v).phase = s.phase := rfl
@[simp] theorem State.changeDevice_ovr (a : RegAddr) (v : Register) (s : State) : (s.changeDevice a v).ovr = s.ovr := rfl
@[simp] theorem State.changeDevice_cur (a : RegAddr) (v : Register) (s : State) : (s.changeDevice a v).cur = s.cur := rfl
@[simp] theorem State.changeDevice_cand (a : RegAddr) (v : Register) (s : State) : (s.changeDevice a v).cand = s.cand := rfl
@[simp] theorem State.changeDevice_latched (a : RegAddr) (v : Register) (s : State) : (s.changeDevice a v).latched = s.latched := rfl
@[simp] theorem State.changeDevice_result (a : RegAddr) (v : Register) (s : State) : (s.changeDevice a v).result = s.result := rfl
@[simp] theorem State.changeDevice_devaddr (a : RegAddr) (v : Register) (s : State) : (s.changeDevice a v).devaddr = s.devaddr := rfl
@[simp] theorem State.changeDevice_facade (a : RegAddr) (v : Register) (s : State) : (s.changeDevice a v).facade = s.facade := rfl
@[simp] theorem State.changeDevice_facadeResult (a : RegAddr) (v : Register) (s : State) : (s.changeDevice a v).facadeResult = s.facadeResult := rfl
@[simp] theorem State.changeDevice_call (a : RegAddr) (v : Register) (s : State) : (s.changeDevice a v).call = s.call := rfl
@[simp] theorem State.changeDevice_history (a : RegAddr) (v : Register) (s : State) : (s.changeDevice a v).history = s.history := rfl
@[simp] theorem State.changeDevice_binding (a : RegAddr) (v : Register) (s : State) : (s.changeDevice a v).binding = s.binding := rfl
@[simp] theorem State.changeDevice_answers (a : RegAddr) (v : Register) (s : State) : (s.changeDevice a v).answers = s.answers := rfl
@[simp] theorem State.changeDevice_latency (a : RegAddr) (v : Register) (s : State) : (s.changeDevice a v).latency = s.latency := rfl
@[simp] theorem State.changeDevice_store (a : RegAddr) (v : Register) (s : State) : (s.changeDevice a v).store = s.store.write a.toNat v := rfl
@[simp] theorem State.changeDevice_failScript (a : RegAddr) (v : Register) (s : State) : (s.changeDevice a v).failScript = s.failScript := rfl
@[simp] theorem State.changeDevice_inputs (a : RegAddr) (v : Register) (s : State) : (s.changeDevice a v).inputs = s.inputs := rfl
@[simp] theorem State.changeDevice_epoch (a : RegAddr) (v : Register) (s : State) : (s.changeDevice a v).epoch = s.epoch := rfl

@[simp] theorem State.complete_phase (r : Result) (s : State) : (s.complete r).phase = .idle := by
  unfold State.complete; split <;> rfl
@[simp] theorem State.complete_ovr (r : Result) (s : State) : (s.complete r).ovr = s.ovr := by
  unfold State.complete; split <;> rfl
@[simp] theorem State.complete_cur (r : Result) (s : State) : (s.complete r).cur = s.cur := by
  unfold State.complete; split <;> rfl
@[simp] theorem State.complete_cand (r : Result) (s : State) : (s.complete r).cand = s.cand := by
  unfold State.complete; split <;> rfl
@[simp] theorem State.complete_latched (r : Result) (s : State) : (s.complete r).latched = s.latched := by
  unfold State.complete; split <;> rfl
@[simp] theorem State.complete_result (r : Result) (s : State) : (s.complete r).result = some r := by
  unfold State.complete; split <;> rfl
@[simp] theorem State.complete_devaddr (r : Result) (s : State) : (s.complete r).devaddr = s.devaddr := by
  unfold State.complete; split <;> rfl
@[simp] theorem State.complete_call (r : Result) (s : State) : (s.complete r).call = s.call := by
  unfold State.complete; split <;> rfl
@[simp] theorem State.complete_history (r : Result) (s : State) : (s.complete r).history = s.history := by
  unfold State.complete; split <;> rfl
@[simp] theorem State.complete_binding (r : Result) (s : State) : (s.complete r).binding = s.binding := by
  unfold State.complete; split <;> rfl
@[simp] theorem State.complete_answers (r : Result) (s : State) : (s.complete r).answers = s.answers := by
  unfold State.complete; split <;> rfl
@[simp] theorem State.complete_latency (r : Result) (s : State) : (s.complete r).latency = s.latency := by
  unfold State.complete; split <;> rfl
@[simp] theorem State.complete_store (r : Result) (s : State) : (s.complete r).store = s.store := by
  unfold State.complete; split <;> rfl
@[simp] theorem State.complete_failScript (r : Result) (s : State) : (s.complete r).failScript = s.failScript := by
  unfold State.complete; split <;> rfl
@[simp] theorem State.complete_inputs (r : Result) (s : State) : (s.complete r).inputs = s.inputs := by
  unfold State.complete; split <;> rfl
@[simp] theorem State.complete_epoch (r : Result) (s : State) : (s.complete r).epoch = s.epoch + 1 := by
  unfold State.complete; split <;> rfl
@[simp] theorem State.countdown_phase (s : State) : s.countdown.phase = s.phase := by
  unfold State.countdown; split <;> rfl
@[simp] theorem State.countdown_ovr (s : State) : s.countdown.ovr = s.ovr := by
  unfold State.countdown; split <;> rfl
@[simp] theorem State.countdown_cur (s : State) : s.countdown.cur = s.cur := by
  unfold State.countdown; split <;> rfl
@[simp] theorem State.countdown_cand (s : State) : s.countdown.cand = s.cand := by
  unfold State.countdown; split <;> rfl
@[simp] theorem State.countdown_latched (s : State) : s.countdown.latched = s.latched := by
  unfold State.countdown; split <;> rfl
@[simp] theorem State.countdown_result (s : State) : s.countdown.result = s.result := by
  unfold State.countdown; split <;> rfl
@[simp] theorem State.countdown_devaddr (s : State) : s.countdown.devaddr = s.devaddr := by
  unfold State.countdown; split <;> rfl
@[simp] theorem State.countdown_facade (s : State) : s.countdown.facade = s.facade := by
  unfold State.countdown; split <;> rfl
@[simp] theorem State.countdown_facadeResult (s : State) : s.countdown.facadeResult = s.facadeResult := by
  unfold State.countdown; split <;> rfl
@[simp] theorem State.countdown_history (s : State) : s.countdown.history = s.history := by
  unfold State.countdown; split <;> rfl
@[simp] theorem State.countdown_binding (s : State) : s.countdown.binding = s.binding := by
  unfold State.countdown; split <;> rfl
@[simp] theorem State.countdown_answers (s : State) : s.countdown.answers = s.answers := by
  unfold State.countdown; split <;> rfl
@[simp] theorem State.countdown_latency (s : State) : s.countdown.latency = s.latency := by
  unfold State.countdown; split <;> rfl
@[simp] theorem State.countdown_store (s : State) : s.countdown.store = s.store := by
  unfold State.countdown; split <;> rfl
@[simp] theorem State.countdown_failScript (s : State) : s.countdown.failScript = s.failScript := by
  unfold State.countdown; split <;> rfl
@[simp] theorem State.countdown_inputs (s : State) : s.countdown.inputs = s.inputs := by
  unfold State.countdown; split <;> rfl
@[simp] theorem State.countdown_epoch (s : State) : s.countdown.epoch = s.epoch := by
  unfold State.countdown; split <;> rfl

/-- With no Facade operation in flight, completing an operation changes its result, the phase and the counter. -/
theorem State.complete_of_no_facade (r : Result) (s : State) (h : s.facade = none) :
    s.complete r = { s with result := some r, phase := .idle, epoch := s.epoch + 1 } := by
  unfold State.complete; rw [h]

/-- Completing the CMRG of a SETCFG completes the SETCFG. -/
theorem State.complete_of_setCfg (r : Result) (s : State) (o : Overrides) (h : s.facade = some (.setCfg o)) :
    s.complete r = { s with result := some r, phase := .idle, epoch := s.epoch + 1, facade := none,
                            facadeResult := FacadeResult.ofCore r } := by
  unfold State.complete; rw [h]

/-- Ready is: the engine is idle and no Facade operation is in flight. -/
theorem State.ready_iff (s : State) : s.ready = true ↔ s.phase = .idle ∧ s.facade = none := by
  simp [State.ready]

theorem State.not_ready_iff (s : State) : s.ready = false ↔ s.phase ≠ .idle ∨ s.facade.isSome = true := by
  cases h : s.facade <;> simp [State.ready, h]

theorem State.whenReady_ready (s t : State) (h : s.ready = true) : s.whenReady t = .next t := by
  simp [State.whenReady, h]

theorem State.whenReady_busy (s t : State) (h : s.ready = false) : s.whenReady t = .next s := by
  simp [State.whenReady, h]

end Sys2Proof.Machine
end

