-- ==== Sys2Proof/Laws/Transport.lean ====
section
/-! SUPPORT. Everything the transport port can do: what an answer leaves, and when there is one. -/

namespace Sys2Proof.Machine

/-- An answer frees the port and records the event; of the rest only the transport's own fields may have changed, and the
store keeps its canonical form. -/
theorem State.serve_spec {q : Request} {s t : State} {a : Answer} (h : s.serve q = some (a, t)) :
    ∃ as fs m, t = { s with answers := as, failScript := fs, store := m, call := none,
                            history := s.history ++ [{ req := q, outcome := a }] } ∧
      (s.store.wf = true → m.wf = true) := by
  unfold State.serve at h
  split at h
  · split at h
    · cases h
    · cases h; exact ⟨_, _, _, rfl, id⟩
  · split at h
    · cases h; exact ⟨_, _, _, rfl, id⟩
    · cases h; exact ⟨_, _, _, rfl, stubStore_wf s.store q⟩

/-- An answer comes only to the call outstanding, once its time has passed. -/
theorem State.respond_spec {s t : State} {a : Answer} (h : s.respond = some (a, t)) :
    ∃ c, s.call = some c ∧ c.left = 0 ∧ ∃ as fs m,
      t = { s with answers := as, failScript := fs, store := m, call := none,
                   history := s.history ++ [{ req := c.req, outcome := a }] } ∧
      (s.store.wf = true → m.wf = true) := by
  unfold State.respond at h
  split at h
  · cases h
  · rename_i c hc
    split at h
    · rename_i hl; exact ⟨c, hc, hl, State.serve_spec h⟩
    · cases h

/-- The external collaborator answers the outstanding call with its next answer. -/
theorem State.respond_external {s : State} {q : Request} {a : Answer} {rest : List Answer}
    (hc : s.call = some { req := q, left := 0 }) (hb : s.binding = .external) (ha : s.answers = a :: rest) :
    s.respond = some (a, { s with answers := rest, call := none,
                                  history := s.history ++ [{ req := q, outcome := a }] }) := by
  simp [State.respond, State.serve, State.answered, hc, hb, ha]

/-- There is no answer while the call's time has not passed. -/
theorem State.respond_waiting {s : State} {q : Request} {n : Nat}
    (hc : s.call = some { req := q, left := n + 1 }) : s.respond = none := by
  simp [State.respond, hc]

/-- The external collaborator that has no answer gives none. -/
theorem State.respond_silent {s : State} (hb : s.binding = .external) (ha : s.answers = []) : s.respond = none := by
  unfold State.respond
  split
  · rfl
  · simp [State.serve, hb, ha]

/-- The stub answers a call its script does not fail. -/
theorem State.respond_stub {s : State} {q : Request} (hc : s.call = some { req := q, left := 0 })
    (hb : s.binding = .stub) (hf : s.failScript.headD false = false) :
    s.respond = some (stubAnswer s.store q,
      { s with store := stubStore s.store q, failScript := s.failScript.tail, call := none,
               history := s.history ++ [{ req := q, outcome := stubAnswer s.store q }] }) := by
  simp only [State.respond, hc, State.serve, hb, hf, if_true]
  rfl

end Sys2Proof.Machine
end

