-- ==== Sys2Proof/Laws/MergeEngine.lean ====
section
/-! SUPPORT. Everything the merge engine can do: one transition at a time, and a CMRG presented to an idle block whatever
the transport answers. Later proofs cite `cmrg_outcome` and do not unfold the engine. -/

namespace Sys2Proof.Machine

theorem engine_idle {s : State} (h : s.phase = .idle) : engine s = s := by simp [engine, h]

theorem engine_waits {s : State} (h : s.respond = none) : engine s = s := by
  unfold engine; cases s.phase <;> simp [h]

theorem engine_read {s t : State} {a : Answer} (hp : s.phase = .rdWait) (h : s.respond = some (a, t)) :
    engine s = readAnswered a t := by simp [engine, hp, h]

theorem engine_write {s t : State} {a : Answer} (hp : s.phase = .wrWait) (h : s.respond = some (a, t)) :
    engine s = writeAnswered a t := by simp [engine, hp, h]

/-- The result of a write's answer (42_merge_engine.md R107, R111). -/
def writeResult : Answer → Result
  | .ok e => .reg e
  | .fail => .transportFailure

@[simp] theorem writeAnswered_phase (a : Answer) (s : State) : (writeAnswered a s).phase = .idle := by
  cases a <;> simp [writeAnswered]

@[simp] theorem writeAnswered_result (a : Answer) (s : State) : (writeAnswered a s).result = some (writeResult a) := by
  cases a <;> simp [writeAnswered, writeResult]

@[simp] theorem writeAnswered_history (a : Answer) (s : State) : (writeAnswered a s).history = s.history := by
  cases a <;> simp [writeAnswered]

@[simp] theorem writeAnswered_call (a : Answer) (s : State) : (writeAnswered a s).call = s.call := by
  cases a <;> simp [writeAnswered]

/-- In WR_WAIT a second transition does nothing. -/
theorem runEngine_write {s : State} (h : s.phase = .wrWait) : runEngine s = engine s := by
  unfold runEngine
  cases hr : s.respond with
  | none => rw [engine_waits hr, engine_waits hr]
  | some y => obtain ⟨a, t⟩ := y; rw [engine_write h hr]; exact engine_idle (writeAnswered_phase a t)

/-- What an answer leaves of the fields the engine reads. -/
theorem State.respond_facts {s t : State} {a : Answer} (h : s.respond = some (a, t)) :
    ∃ c, s.call = some c ∧ t.history = s.history ++ [{ req := c.req, outcome := a }] ∧ t.ovr = s.ovr ∧
      t.latched = s.latched ∧ t.facade = s.facade ∧ t.result = s.result ∧ t.phase = s.phase ∧ t.call = none := by
  obtain ⟨c, hc, _, as, fs, m, rfl, _⟩ := State.respond_spec h
  exact ⟨c, hc, rfl, rfl, rfl, rfl, rfl, rfl, rfl⟩

/-- The eight ways a CMRG presented to an idle block leaves it: the events issued, the phase, the result and the port
(42_merge_engine.md R113, with the two ways of waiting of R117); `c` is what stood at the port before. -/
inductive CmrgOutcome (d : DevAddr) (o : Overrides) (c : Option Call) (t : State) : List Event → Prop
  | noOp : o.count = 0 → t.result = some .noOpRequested → t.phase = .idle → t.call = c → CmrgOutcome d o c t []
  | writeWaits (n : Nat) : o.count = 6 → t.result = none → t.phase = .wrWait →
      t.call = some { req := .wr d addrCfg (cenc (o.merge blankConfiguration)), left := n } → CmrgOutcome d o c t []
  | fastPath (a : Answer) : o.count = 6 → t.result = some (writeResult a) → t.phase = .idle → t.call = none →
      CmrgOutcome d o c t [{ req := .wr d addrCfg (cenc (o.merge blankConfiguration)), outcome := a }]
  | readWaits (n : Nat) : 1 ≤ o.count → o.count ≠ 6 → t.result = none → t.phase = .rdWait →
      t.call = some { req := .rd d addrCfg, left := n } → CmrgOutcome d o c t []
  | readFails : 1 ≤ o.count → o.count ≠ 6 → t.result = some .transportFailure → t.phase = .idle → t.call = none →
      CmrgOutcome d o c t [{ req := .rd d addrCfg, outcome := .fail }]
  | shortCircuit (r : Register) : 1 ≤ o.count → o.count ≠ 6 → cenc (o.merge (cdec r)) = cenc (cdec r) →
      t.result = some (.reg (cenc (o.merge (cdec r)))) → t.phase = .idle → t.call = none →
      CmrgOutcome d o c t [{ req := .rd d addrCfg, outcome := .ok r }]
  | updateWaits (r : Register) (n : Nat) : 1 ≤ o.count → o.count ≠ 6 → cenc (o.merge (cdec r)) ≠ cenc (cdec r) →
      t.result = none → t.phase = .wrWait →
      t.call = some { req := .wr d addrCfg (cenc (o.merge (cdec r))), left := n } →
      CmrgOutcome d o c t [{ req := .rd d addrCfg, outcome := .ok r }]
  | update (r : Register) (a : Answer) : 1 ≤ o.count → o.count ≠ 6 → cenc (o.merge (cdec r)) ≠ cenc (cdec r) →
      t.result = some (writeResult a) → t.phase = .idle → t.call = none →
      CmrgOutcome d o c t [{ req := .rd d addrCfg, outcome := .ok r },
                           { req := .wr d addrCfg (cenc (o.merge (cdec r))), outcome := a }]

/-- A CMRG presented to an idle block is the engine run from acceptance. -/
theorem exec_cmrg_ready {d : DevAddr} {o : Overrides} {s : State} (hp : s.phase = .idle) (hf : s.facade = none) :
    exec (.cmrg d o) s = .next (runEngine (cmrgAccept d o s)) :=
  State.whenReady_ready _ _ ((State.ready_iff s).2 ⟨hp, hf⟩)

/-- The engine in WR_WAIT with the write `q` just issued. -/
theorem engine_issued_write (q : Request) {s : State} (hp : s.phase = .wrWait) (hr : s.result = none) :
    (engine (s.issue q)).history = s.history ∧ (engine (s.issue q)).result = none ∧
      (engine (s.issue q)).phase = .wrWait ∧ (engine (s.issue q)).call = some { req := q, left := s.latency.headD 0 } ∨
    ∃ a, (engine (s.issue q)).history = s.history ++ [{ req := q, outcome := a }] ∧
      (engine (s.issue q)).result = some (writeResult a) ∧ (engine (s.issue q)).phase = .idle ∧
      (engine (s.issue q)).call = none := by
  cases hs : (s.issue q).respond with
  | none => rw [engine_waits hs]; exact .inl ⟨rfl, hr, hp, rfl⟩
  | some y =>
    obtain ⟨a, t⟩ := y
    obtain ⟨c, h1, h2, _, _, _, _, _, h3⟩ := State.respond_facts hs
    cases h1
    rw [engine_write (by exact hp) hs]
    exact .inr ⟨a, by simp [h2], by simp, by simp, by simp [h3]⟩

/-- Everything a CMRG presented to an idle block can do. -/
theorem cmrg_outcome (d : DevAddr) (o : Overrides) {s : State} (hp : s.phase = .idle) (hf : s.facade = none) :
    ∃ t evs, exec (.cmrg d o) s = .next t ∧ t.history = s.history ++ evs ∧ CmrgOutcome d o s.call t evs := by
  rw [exec_cmrg_ready hp hf]
  suffices h : ∃ evs, (runEngine (cmrgAccept d o s)).history = s.history ++ evs ∧
      CmrgOutcome d o s.call (runEngine (cmrgAccept d o s)) evs by
    obtain ⟨evs, h1, h2⟩ := h; exact ⟨_, evs, rfl, h1, h2⟩
  by_cases h0 : o.count = 0
  · have e : cmrgAccept d o s = State.complete .noOpRequested { s with ovr := o, latched := d, result := none } := by
      simp [cmrgAccept, h0]
    have hi : (cmrgAccept d o s).phase = .idle := by rw [e]; simp
    unfold runEngine
    rw [engine_idle hi, engine_idle hi]
    exact ⟨[], by rw [e]; simp, .noOp h0 (by rw [e]; simp) hi (by rw [e]; simp)⟩
  · by_cases h6 : o.count = 6
    · have e : cmrgAccept d o s = State.issue (.wr d addrCfg (cenc (o.merge blankConfiguration)))
          { s with ovr := o, latched := d, result := none, cand := cenc (o.merge blankConfiguration),
                   phase := .wrWait } := by simp [cmrgAccept, h6]
      rw [e, runEngine_write rfl]
      obtain ⟨h1, h2, h3, h4⟩ | ⟨a, h1, h2, h3, h4⟩ := engine_issued_write (.wr d addrCfg (cenc (o.merge blankConfiguration)))
        (s := { s with ovr := o, latched := d, result := none, cand := cenc (o.merge blankConfiguration),
                       phase := .wrWait }) rfl rfl
      · exact ⟨[], by rw [h1]; simp, .writeWaits _ h6 h2 h3 h4⟩
      · exact ⟨_, h1, .fastPath a h6 h2 h3 h4⟩
    · have h1 : 1 ≤ o.count := by omega
      have e : cmrgAccept d o s = State.issue (.rd d addrCfg)
          { s with ovr := o, latched := d, result := none, phase := .rdWait } := by simp [cmrgAccept, h0, h6]
      rw [e]
      generalize hx : State.issue _ _ = x
      have xp : x.phase = .rdWait := by subst hx; rfl
      have xh : x.history = s.history := by subst hx; rfl
      have xr : x.result = none := by subst hx; rfl
      have xo : x.ovr = o := by subst hx; rfl
      have xd : x.latched = d := by subst hx; rfl
      obtain ⟨n, xc⟩ : ∃ n, x.call = some { req := .rd d addrCfg, left := n } := by subst hx; exact ⟨_, rfl⟩
      unfold runEngine
      cases hr : x.respond with
      | none => rw [engine_waits hr, engine_waits hr]; exact ⟨[], by simp [xh], .readWaits n h1 h6 xr xp xc⟩
      | some y =>
        obtain ⟨a, t⟩ := y
        obtain ⟨c, hc, f1, f2, f3, _, f5, _, f6⟩ := State.respond_facts hr
        rw [xc] at hc; cases hc
        rw [engine_read xp hr]
        rw [xh] at f1
        rw [xo] at f2
        rw [xd] at f3
        cases a with
        | fail =>
          rw [engine_idle (by simp [readAnswered])]
          exact ⟨[{ req := .rd d addrCfg, outcome := .fail }], by simp [readAnswered, f1],
            .readFails h1 h6 (by simp [readAnswered]) (by simp [readAnswered]) (by simp [readAnswered, f6])⟩
        | ok r =>
          by_cases he : cenc (o.merge (cdec r)) = cenc (cdec r)
          · have e2 : readAnswered (.ok r) t = State.complete (.reg (cenc (o.merge (cdec r))))
                { t with cur := r, cand := cenc (o.merge (cdec r)) } := by simp [readAnswered, f2, he]
            rw [e2, engine_idle (by simp)]
            exact ⟨[{ req := .rd d addrCfg, outcome := .ok r }], by simp [f1],
              .shortCircuit r h1 h6 he (by simp) (by simp) (by simp [f6])⟩
          · have e2 : readAnswered (.ok r) t = State.issue (.wr d addrCfg (cenc (o.merge (cdec r))))
                { t with cur := r, cand := cenc (o.merge (cdec r)), phase := .wrWait } := by
              simp [readAnswered, f2, he, f3]
            rw [e2]
            obtain ⟨g1, g2, g3, g4⟩ | ⟨a, g1, g2, g3, g4⟩ :=
              engine_issued_write (.wr d addrCfg (cenc (o.merge (cdec r))))
                (s := { t with cur := r, cand := cenc (o.merge (cdec r)), phase := .wrWait }) rfl (by simp [f5, xr])
            · exact ⟨[{ req := .rd d addrCfg, outcome := .ok r }], by rw [g1]; simp [f1],
                .updateWaits r _ h1 h6 he g2 g3 g4⟩
            · exact ⟨[{ req := .rd d addrCfg, outcome := .ok r },
                  { req := .wr d addrCfg (cenc (o.merge (cdec r))), outcome := a }], by rw [g1]; simp [f1],
                .update r a h1 h6 he g2 g3 g4⟩

end Sys2Proof.Machine
end

