-- ==== Sys2Proof/Laws/PerInstr.lean ====
section
/-! SUPPORT. Statements about every operation as syntax, one lemma per constructor. -/

namespace Sys2Proof.Laws

/-- The operation select of an encoded operation stands in bits [34:32] (30_encoding.md R61). -/
theorem encode_op (i : Instr) : (encode i).extractLsb' 32 3 = i.opCode := by
  apply BitVec.eq_of_getLsbD_eq
  intro j hj
  simp only [encode, BitVec.getLsbD_extractLsb', BitVec.getLsbD_or, getLsbD_field]
  interval_cases j <;> simp

/-- The operand of an encoded operation stands in bits [31:0] (30_encoding.md R61). -/
theorem encode_operand (i : Instr) (k n : Nat) (h : k + n ≤ 32) :
    (encode i).extractLsb' k n = i.operand.extractLsb' k n := by
  apply BitVec.eq_of_getLsbD_eq
  intro j hj
  have h1 : k + j < 35 := by omega
  have h2 : ¬ 32 ≤ k + j := by omega
  simp only [encode, BitVec.getLsbD_extractLsb', BitVec.getLsbD_or, getLsbD_field]
  simp [h1, h2]

/-- The family `Admitted`: the word of an operation is one that spells an operation (30_encoding.md R67). -/
def Admitted.Statement (i : Instr) : Prop := WellFormed.admits (encode i) = true

theorem Admitted.tdec (r : Register) : Admitted.Statement (.tdec r) := by
  simp [Admitted.Statement, WellFormed.admits, WellFormed.opAssigned, WellFormed.cencRecord, WellFormed.ceqRecords,
    WellFormed.cmrgMode, encode_op, Instr.opCode]

theorem Admitted.tenc (f : FloatBits) : Admitted.Statement (.tenc f) := by
  simp [Admitted.Statement, WellFormed.admits, WellFormed.opAssigned, WellFormed.cencRecord, WellFormed.ceqRecords,
    WellFormed.cmrgMode, encode_op, Instr.opCode]

theorem Admitted.cdec (r : Register) : Admitted.Statement (.cdec r) := by
  simp [Admitted.Statement, WellFormed.admits, WellFormed.opAssigned, WellFormed.cencRecord, WellFormed.ceqRecords,
    WellFormed.cmrgMode, encode_op, Instr.opCode]

/-- The mode code of a record carried in the low or the high half of an operand. -/
theorem operand_low_mode {i : Instr} {x : BitVec 32} {c : Configuration} (h : i.operand = x ||| field 32 0 (packRecord c))
    (hx : ∀ j, j < 16 → x.getLsbD j = false) : (encode i).extractLsb' 10 2 = c.mode.bits := by
  rw [encode_operand _ _ _ (by omega), h, ← packRecord_mode]
  apply BitVec.eq_of_getLsbD_eq
  intro j hj
  simp only [BitVec.getLsbD_extractLsb', BitVec.getLsbD_or, getLsbD_field, hx (10 + j) (by omega)]
  interval_cases j <;> simp

theorem operand_high_mode {a b : Configuration} : (encode (.ceq a b)).extractLsb' 26 2 = a.mode.bits := by
  rw [encode_operand _ _ _ (by omega), ← packRecord_mode]
  apply BitVec.eq_of_getLsbD_eq
  intro j hj
  simp only [Instr.operand, BitVec.getLsbD_extractLsb', BitVec.getLsbD_or, getLsbD_field]
  interval_cases j <;> simp

theorem Admitted.cenc (c : Configuration) : Admitted.Statement (.cenc c) := by
  have h : (encode (.cenc c)).extractLsb' 10 2 = c.mode.bits :=
    operand_low_mode (x := 0) (by simp [Instr.operand]) (by simp)
  simp [Admitted.Statement, WellFormed.admits, WellFormed.opAssigned, WellFormed.cencRecord, WellFormed.ceqRecords,
    WellFormed.cmrgMode, encode_op, Instr.opCode, h, Mode.bits_ne_alias]

theorem Admitted.ceq (a b : Configuration) : Admitted.Statement (.ceq a b) := by
  have h : (encode (.ceq a b)).extractLsb' 10 2 = b.mode.bits :=
    operand_low_mode (x := field 32 16 (packRecord a)) rfl (by intro j hj; simp; omega)
  simp [Admitted.Statement, WellFormed.admits, WellFormed.opAssigned, WellFormed.cencRecord, WellFormed.ceqRecords,
    WellFormed.cmrgMode, encode_op, Instr.opCode, h, operand_high_mode, Mode.bits_ne_alias]

theorem Admitted.cmrg (d : DevAddr) (o : Overrides) : Admitted.Statement (.cmrg d o) := by
  have hp : (encode (.cmrg d o)).extractLsb' 21 1 = BitVec.ofBool o.mode.isSome := by
    rw [encode_operand _ _ _ (by omega)]
    apply BitVec.eq_of_getLsbD_eq
    intro j hj
    simp only [Instr.operand, Overrides.presentBits, Overrides.valueBits, BitVec.getLsbD_extractLsb',
      BitVec.getLsbD_or, getLsbD_field]
    interval_cases j; simp
  have hv : (encode (.cmrg d o)).extractLsb' 10 2 = (o.mode.map Mode.bits).getD 0 := by
    rw [encode_operand _ _ _ (by omega)]
    apply BitVec.eq_of_getLsbD_eq
    intro j hj
    simp only [Instr.operand, Overrides.presentBits, Overrides.valueBits, BitVec.getLsbD_extractLsb',
      BitVec.getLsbD_or, getLsbD_field]
    interval_cases j <;> simp
  have hm : ¬ (BitVec.ofBool o.mode.isSome = 1#1 ∧ (o.mode.map Mode.bits).getD 0 = 0b10#2) := by
    cases o.mode with
    | none => decide
    | some m => cases m <;> decide
  simp only [Admitted.Statement, WellFormed.admits, WellFormed.opAssigned, WellFormed.cencRecord,
    WellFormed.ceqRecords, WellFormed.cmrgMode, encode_op, Instr.opCode, hp, hv]
  rw [not_and_or] at hm
  simpa using hm

end Sys2Proof.Laws
end

