-- ==== Sys2Proof/Laws/Step.lean ====
section
/-! SUPPORT. A run peeled off one step at a time, and a step in which nothing is taken up. -/

namespace Sys2Proof.Machine

theorem run_zero (s : State) : Sys2Proof.core.run 0 s = .next s := rfl

/-- The first step of a run. -/
theorem run_succ {s t : State} (n : Nat) (h : step s = .next t) :
    Sys2Proof.core.run (n + 1) s = Sys2Proof.core.run n t := by
  refine (Host.Core.run.eq_2 Sys2Proof.core s n).trans ?_
  rw [show Sys2Proof.core.step s = .next t from h]

/-- With nothing presented, a CMRG in flight goes on as far as the transport has answered. -/
theorem step_in_flight {s : State} (hi : s.inputs = []) (hp : s.phase ≠ .idle) :
    step s = .next (runEngine s.tick.countdown) := by
  simp only [step, fetch, hi, await, goOn]
  rw [if_neg (by simpa using hp)]

/-- While an operation is in flight and nothing else is taken up, a step is the operation going on. -/
theorem step_busy {s : State} (hn : Safety.nothingElsePresented s = true) (hr : s.ready = false) :
    step s = .next (await s) := by
  unfold Safety.nothingElsePresented at hn
  unfold step fetch
  split at hn <;> simp_all

/-- Time passes for the outstanding call. -/
theorem State.countdown_call {s : State} {q : Request} {n : Nat} (hc : s.call = some { req := q, left := n }) :
    s.tick.countdown = { s with call := some { req := q, left := n - 1 }, epoch := s.epoch + 1 } := by
  simp [State.countdown, State.tick, hc]

/-- The Facade operation in flight waits while its call is not answered. -/
theorem facadeRun_waits {s : State} (h : s.respond = none) : facadeRun s = s := by
  unfold facadeRun; cases s.facade <;> simp [h]

/-- The Facade operation in flight ends with the answer to its call. -/
theorem facadeRun_answered {s t : State} {p : Pseudo} {a : Answer} (hf : s.facade = some p)
    (h : s.respond = some (a, t)) : facadeRun s = facadeFinish p a { t with facade := none } := by
  unfold facadeRun; simp [hf, h]

end Sys2Proof.Machine
end

