-- ==== Sys2Proof/Machine/Assembler.lean ====
section
/-! DEFINITION. The textual form of an operation (30_encoding.md R69), records in their packing (`rec:0x....`), floats as
bit patterns (`f32:0x........`). Labels only: no meaning depends on it. -/

namespace Sys2Proof.Machine.Assembler

/-- One hexadecimal digit. -/
def hexDigit (n : Nat) : Char := ("0123456789ABCDEF".toList.drop n).headD '?'

/-- The low `k` hexadecimal digits of a number, most significant first. -/
def hexDigits : Nat → Nat → List Char
  | 0, _ => []
  | k + 1, n => hexDigits k (n / 16) ++ [hexDigit (n % 16)]

def hex (k n : Nat) : List Char := "0x".toList ++ hexDigits k n

def modeText : Mode → String
  | .continuous => "CONTINUOUS"
  | .shutdown => "SHUTDOWN"
  | .oneshot => "ONESHOT"

def convText (c : CycleTime) : String := String.ofList ("CCT_".toList ++ [hexDigit c.bits.toNat])

def avgText : Averages → String
  | .avg1 => "AVG_1"
  | .avg8 => "AVG_8"
  | .avg32 => "AVG_32"
  | .avg64 => "AVG_64"

def thermText : ThermalAlert → String
  | .alert => "ALERT"
  | .therm => "THERM"

def polText : Polarity → String
  | .activeLow => "ACTIVE_LOW"
  | .activeHigh => "ACTIVE_HIGH"

def drText : DataReadySelect → String
  | .alertStatus => "ALERT_STATUS"
  | .dataReady => "DATA_READY"

/-- `field=variant` of an override that is present. -/
def overrideText {α : Type} (field : String) (text : α → String) : Option α → List (List Char)
  | none => []
  | some v => [(field ++ "=" ++ text v).toList]

/-- The listed fields of a CMRG, `, ` between them. -/
def overridesText (o : Overrides) : List Char :=
  List.intercalate ", ".toList (overrideText "mode" modeText o.mode ++ overrideText "conv" convText o.conv ++
    overrideText "avg" avgText o.avg ++ overrideText "therm" thermText o.therm ++ overrideText "pol" polText o.pol ++
    overrideText "dr" drText o.dr)

def recordText (c : Configuration) : List Char := "rec:".toList ++ hex 4 (packRecord c).toNat

/-- One operation, one line (30_encoding.md R69). -/
def text : Instr → List Char
  | .tdec r => "TDEC ".toList ++ hex 4 r.toNat
  | .tenc f => "TENC f32:".toList ++ hex 8 f.toNat
  | .cdec r => "CDEC ".toList ++ hex 4 r.toNat
  | .cenc c => "CENC ".toList ++ recordText c
  | .cmrg d o =>
    "CMRG @".toList ++ hex 2 d.toNat ++ (if o.count = 0 then [] else [' ']) ++ overridesText o
  | .ceq a b => "CEQ ".toList ++ recordText a ++ ", ".toList ++ recordText b

end Sys2Proof.Machine.Assembler
end

