-- ==== Sys2Proof/Tests/Slice0.lean ====
section
/-! SUPPORT. Tests, each with the place of spec/ its expected value comes from, and one named witness for every statement
of Obligations.lean that has hypotheses. "V-…" and "P…" are the vectors and programs of 95_test_vectors.md. -/

namespace Sys2Proof.Tests

open Sys2Proof.Machine Sys2Proof.Safety

/-! ### Helpers -/

def stateOf : Host.Outcome State Fault Refusal → Option State
  | .next t => some t
  | .fault _ => none
  | .refused _ => none

def refusalOf : Host.Outcome State Fault Refusal → Option Refusal
  | .next _ => none
  | .fault _ => none
  | .refused r => some r

/-- Reset with DEVADDR 0x48 and the external transport that will give these answers. -/
def external (answers : List Answer) : State := { State.reset with devaddr := 0x48, answers := answers }

/-- Reset with DEVADDR 0x48 and the reference stub bound. -/
def stub (store : Memory) (script : List Bool) : State :=
  { State.reset with devaddr := 0x48, binding := .stub, store := store, failScript := script }

/-- The result of one step in which this command word is presented. -/
def resultOf (s : State) (w : Nat) : Option Result := ((stateOf (step (s.withFetchWord 35 w))).map State.result).getD none

/-- The result word of such a step. -/
def resOf (s : State) (w : Nat) : Option ResWord := (stateOf (step (s.withFetchWord 35 w))).map State.res

/-- The result, the events and register 0x01 of the store after such a step. -/
def merged (s : State) (w : Nat) : Option (Option Result × List Event × Register) :=
  (stateOf (step (s.withFetchWord 35 w))).map fun t => (t.result, t.history, t.store.read 1)

/-- What a Facade operation gives: its result, the events, and a register of the store. -/
def facadeOf (s : State) (p : Pseudo) (a : Nat) : Option (Option FacadeResult × List Event × Register) :=
  (stateOf (execPseudo p s)).map fun t => (t.facadeResult, t.history, t.store.read a)

def rd (d : DevAddr) (a : RegAddr) (x : Answer) : Event := { req := .rd d a, outcome := x }
def wr (d : DevAddr) (a : RegAddr) (v : Register) (x : Answer) : Event := { req := .wr d a v, outcome := x }

/-! ### WellFormed: a word each check refuses, and one all admit -/

/-- V-ENC-9. -/
theorem test_reserved_op_is_refused :
    WellFormed.opAssigned 0x600000000 = false ∧ WellFormed.opAssigned 0x7FFFFFFFF = false ∧
      refusalOf (step (State.reset.withFetchWord 35 0x600000000)) = some (.reservedCommand .reservedOp) := by decide

/-- V-ENC-10, V-CENC-12. -/
theorem test_cenc_alias_record_is_refused :
    WellFormed.cencRecord 0x300000800 = false ∧ WellFormed.cencRecord 0x30000FBFC = false ∧
      refusalOf (step (State.reset.withFetchWord 35 0x300000800)) = some (.reservedCommand .reservedRecord) := by decide

/-- V-ENC-11, V-CEQ-10. -/
theorem test_ceq_alias_records_are_refused :
    WellFormed.ceqRecords 0x508000000 = false ∧ WellFormed.ceqRecords 0x500000800 = false ∧
      decode 0x50A200220 = .error .reservedRecord := by decide

/-- V-ENC-12, V-CMRG-19. -/
theorem test_cmrg_alias_override_is_refused :
    WellFormed.cmrgMode 0x448200800 = false ∧
      refusalOf (step (State.reset.withFetchWord 35 0x448200800)) = some (.reservedCommand .reservedModeOverride) := by
  decide

/-- R132: an address that is no member of DEVADDR_SET, whatever that set is. -/
theorem test_setaddr_outside_set_is_refused (a : DevAddr) (h : a ∉ Config.devAddrSet) :
    WellFormed.pseudo (.setAddr a) = false ∧ refusalOf (execPseudo (.setAddr a) State.reset) = some .devaddrOutsideSet := by
  have h' : WellFormed.pseudo (.setAddr a) = false := by simpa [WellFormed.pseudo] using h
  exact ⟨h', by simp [execPseudo, setAddr, h', State.ready, State.reset, refusalOf]⟩

/-- V-ENC-13: the ignored bits are no reason to refuse. -/
theorem test_ignored_bits_are_admitted : WellFormed.admits 0x4C8C8F823 = true ∧ decode 0x4C8C8F823 = decode 0x448080020 := by
  decide

/-! ### Decoding and encoding: words written out bit by bit -/

/-- V-ENC-1: op 000, reg_in 0000110010000000. -/
theorem test_decode_tdec : decode 0b00000000000000000000000110010000000#35 = .ok (.tdec 0x0C80) := by decide

/-- V-ENC-3: op 001, f_in 11000010001000000000000000000000. -/
theorem test_decode_tenc : decode 0b00111000010001000000000000000000000#35 = .ok (.tenc 0xC2200000) := by decide

/-- V-ENC-4: op 010, reg_in 0000001000100000. -/
theorem test_decode_cdec : decode 0b01000000000000000000000001000100000#35 = .ok (.cdec 0x0220) := by decide

/-- V-ENC-5 with V-CDEC-5's record: op 011, rec_in 0000001000100000. -/
theorem test_decode_cenc : decode 0b01100000000000000000000001000100000#35 =
    .ok (.cenc ⟨false, false, false, false, .continuous, .cct4, .avg8, .alert, .activeLow, .alertStatus⟩) := by decide

/-- V-ENC-7: op 100, devaddr 1001011, ovr_present 100000, ovr_value.mode 01. -/
theorem test_decode_cmrg : decode 0b10001001011001000000000010000000000#35 =
    .ok (.cmrg 0x4B { noOverrides with mode := some .shutdown }) := by decide

/-- V-ENC-8: op 101, rec_in 1000001000100000, rec_in2 0000001000100000. -/
theorem test_decode_ceq : decode 0b10110000010001000000000001000100000#35 =
    .ok (.ceq ⟨true, false, false, false, .continuous, .cct4, .avg8, .alert, .activeLow, .alertStatus⟩
      ⟨false, false, false, false, .continuous, .cct4, .avg8, .alert, .activeLow, .alertStatus⟩) := by decide

/-- V-ENC-6, V-ENC-7: the encoder gives the words the spec prints; V-CMRG-13's word has five overrides. -/
theorem test_encode_cmrg :
    encode (.cmrg 0x48 { noOverrides with therm := some .therm, pol := some .activeHigh, dr := some .dataReady }) =
      0x44807001C ∧
    encode (.cmrg 0x49 ⟨some .shutdown, some .cct1, some .avg1, some .therm, some .activeHigh, none⟩) = 0x4493E0498 := by
  decide

/-- The opcode table's numbering: a word of more than 35 bits, and a reserved word, spell nothing. -/
theorem test_decodeTableWord :
    decodeTableWord 35 0x000000C80 = some (.tdec 0x0C80) ∧ decodeTableWord 40 0x800000000 = none ∧
      decodeTableWord 35 0x700000000 = none := by decide

/-- 30_encoding.md R69's example, V-ENC-8. -/
theorem test_text :
    Assembler.text (.cmrg 0x48 { noOverrides with therm := some .therm, pol := some .activeHigh, dr := some .dataReady }) =
      "CMRG @0x48 therm=THERM, pol=ACTIVE_HIGH, dr=DATA_READY".toList ∧
    Assembler.text (.cmrg 0x48 noOverrides) = "CMRG @0x48".toList ∧
    Assembler.text (.tdec 0x0C80) = "TDEC 0x0C80".toList := by decide

/-! ### TDEC -/

/-- V-TDEC-1, 2, 5, 6, 9, 11 to 14, 18. -/
theorem test_tdec_vectors :
    tdec 0x0000 = 0x00000000 ∧ tdec 0x0001 = 0x3C000000 ∧ tdec 0x0080 = 0x3F800000 ∧ tdec 0x0C80 = 0x41C80000 ∧
      tdec 0x5555 = 0x432AAA00 ∧ tdec 0x7FFF = 0x437FFE00 ∧ tdec 0x8000 = 0xC3800000 ∧ tdec 0x8001 = 0xC37FFE00 ∧
      tdec 0xAAAA = 0xC32AAC00 ∧ tdec 0xFFFF = 0xBC000000 := by decide

/-- V-TDEC-19: the high half of the operand is ignored; P1 step 2's result word. -/
theorem test_tdec_step :
    resultOf State.reset 0x0FFFF0C80 = some (.float 0x41C80000) ∧ resOf State.reset 0x000000C80 = some 0x041C80000 := by
  decide

/-! ### TENC -/

/-- V-TENC-2, 3, 5, 6, 9 to 11, 25, 29 to 32 in range; V-TENC-33 to 38 out of range under WRAP and SATURATE. -/
theorem test_tenc_vectors :
    let wrap := tencWith oorWrap (fun _ => 0)
    let saturate := tencWith oorSaturate (fun _ => 0)
    wrap 0x80000000 = 0 ∧ wrap 0x00000001 = 0 ∧ wrap 0x3BFFFFFF = 0 ∧ wrap 0xBBFFFFFF = 0 ∧ wrap 0x3C75C28F = 1 ∧
      wrap 0x3DCCCCCD = 0x000C ∧ wrap 0xBDCCCCCD = 0xFFF4 ∧ wrap 0x42FFFE00 = 0x3FFF ∧ wrap 0x437FFFFF = 0x7FFF ∧
      wrap 0xC3800000 = 0x8000 ∧ wrap 0xC38000A4 = 0x8000 ∧ wrap 0xC38000FF = 0x8000 ∧
      (wrap 0x43800000, saturate 0x43800000) = (0x8000, 0x7FFF) ∧
      (wrap 0xC3800100, saturate 0xC3800100) = (0x7FFF, 0x8000) ∧
      (wrap 0x44000000, saturate 0x44000000) = (0x0000, 0x7FFF) ∧
      (wrap 0x447A0000, saturate 0xC3960000) = (0xF400, 0x8000) := by decide

/-- V-TENC-20, P1 step 3: no parameter enters for an input in range; V-TENC-39: NaN gives what TENC_SPECIAL says. -/
theorem test_tenc_step :
    resultOf State.reset 0x1C2200000 = some (.reg 0xEC00) ∧ resOf State.reset 0x141F40000 = some 0x000000F40 ∧
      resultOf State.reset 0x17FC00000 = some (.reg (Config.tencSpecial 0x7FC00000)) := by
  refine ⟨by decide, by decide, rfl⟩

/-! ### CDEC -/

/-- V-CDEC-2, 4 to 6, 8 to 11, 14, in record packing. -/
theorem test_cdec_vectors :
    packRecord (cdec 0x0800) = 0x0000 ∧ packRecord (cdec 0x0C00) = 0x0C00 ∧ packRecord (cdec 0x0220) = 0x0220 ∧
      packRecord (cdec 0x0A20) = 0x0220 ∧ packRecord (cdec 0x0E20) = 0x0E20 ∧ packRecord (cdec 0xAAAA) = 0xA2A8 ∧
      packRecord (cdec 0x5555) = 0x5554 ∧ packRecord (cdec 0xFFFF) = 0xFFFC ∧ packRecord (cdec 0x2A23) = 0x2220 := by decide

/-- V-CDEC-10 field by field; the command word of V-CDEC-9. -/
theorem test_cdec_step :
    resultOf State.reset 0x200005555 =
      some (.cfg ⟨false, true, false, true, .shutdown, .cct2, .avg32, .therm, .activeLow, .dataReady⟩) ∧
    resOf State.reset 0x20000AAAA = some 0x00000A2A8 := by decide

/-! ### CENC -/

/-- V-CENC-2, 4: the source's own word (S15), from the fields. -/
theorem test_cenc_fields :
    cenc ⟨false, false, false, false, .oneshot, .cct7, .avg64, .therm, .activeHigh, .dataReady⟩ = 0x0FFC ∧
      cenc ⟨false, false, false, false, .continuous, .cct4, .avg8, .therm, .activeHigh, .dataReady⟩ = 0x023C := by decide

/-- V-CENC-5, 8, 10: flags masked (90_conflicts.md C1), bits [1:0] ignored. -/
theorem test_cenc_step :
    resultOf State.reset 0x30000A2A8 = some (.reg 0x02A8) ∧ resultOf State.reset 0x30000F000 = some (.reg 0x0000) ∧
      resultOf State.reset 0x300000223 = some (.reg 0x0220) := by decide

/-! ### CEQ -/

/-- V-CEQ-3, 4, 9. -/
theorem test_ceq_ignores_flags :
    resultOf State.reset 0x5F2200220 = some (.eq true) ∧ resultOf State.reset 0x5A2A802A8 = some (.eq true) ∧
      resultOf State.reset 0x502230220 = some (.eq true) := by decide

/-- V-CEQ-5 to 8. -/
theorem test_ceq_sees_fields :
    resultOf State.reset 0x502200224 = some (.eq false) ∧ resultOf State.reset 0x502200620 = some (.eq false) ∧
      resultOf State.reset 0x5022002A0 = some (.eq false) ∧ resultOf State.reset 0x502200240 = some (.eq false) := by decide

/-! ### CMRG -/

/-- V-CMRG-1, 2, 4, 8, 10, 12, 13, on the reference stub. -/
theorem test_cmrg_paths :
    [merged (stub [(1, 0x0220)] []) 0x448000000, merged (stub [(1, 0x0220)] []) 0x44807001C,
      merged (stub [(1, 0x0A20)] []) 0x448080020, merged (stub [(1, 0x2E20)] []) 0x448200C00,
      merged (stub [(1, 0x0220)] []) 0x4483F0220, merged (stub [(1, 0xA223)] []) 0x4481803E0,
      merged (stub [(1, 0x0220)] []) 0x4493E0498] =
    [some (some .noOpRequested, [], 0x0220),
      some (some (.reg 0x023C), [rd 0x48 1 (.ok 0x0220), wr 0x48 1 0x023C (.ok 0x023C)], 0x023C),
      some (some (.reg 0x0220), [rd 0x48 1 (.ok 0x0A20)], 0x0A20),
      some (some (.reg 0x0E20), [rd 0x48 1 (.ok 0x2E20)], 0x2E20),
      some (some (.reg 0x0220), [wr 0x48 1 0x0220 (.ok 0x0220)], 0x0220),
      some (some (.reg 0x03E0), [rd 0x48 1 (.ok 0xA223), wr 0x48 1 0x03E0 (.ok 0x03E0)], 0x03E0),
      some (some (.reg 0x0498), [rd 0x49 1 (.ok 0x0220), wr 0x49 1 0x0498 (.ok 0x0498)], 0x0498)] := by decide

/-- V-CMRG-15 to 18, and V-CMRG-20 with the external transport, whose echo is returned as delivered. -/
theorem test_cmrg_failures_and_echo :
    merged (stub [(1, 0x0220)] [true]) 0x448200400 = some (some .transportFailure, [rd 0x48 1 .fail], 0x0220) ∧
    merged (stub [(1, 0x0220)] [false, true]) 0x448200400 =
      some (some .transportFailure, [rd 0x48 1 (.ok 0x0220), wr 0x48 1 0x0620 .fail], 0x0220) ∧
    merged (stub [(1, 0x0220)] [true]) 0x4483F0C00 = some (some .transportFailure, [wr 0x48 1 0x0C00 .fail], 0x0220) ∧
    merged (stub [(1, 0x0220)] []) 0x448080820 = some (some (.reg 0x0220), [rd 0x48 1 (.ok 0x0220)], 0x0220) ∧
    resultOf (external [.ok 0x0220, .ok 0x823C]) 0x44807001C = some (.reg 0x823C) := by decide

/-- P7: a second writer changes `CFGR` between the read and the write, and its change is lost. -/
theorem test_lost_update :
    (stateOf (Sys2Proof.core.run 3 { stub [(1, 0x0220)] [] with
        latency := [0, 2], inputs := [.command 0x448020008, .deviceChange 1 0x0620, .quiet] })).map
      (fun t => (t.phase, t.result, t.store.read 1, t.history)) =
    some (.idle, some (.reg 0x0228), 0x0228, [rd 0x48 1 (.ok 0x0220), wr 0x48 1 0x0228 (.ok 0x0228)]) := by decide

/-- The run of P7 (95_test_vectors.md) on the stub of reset's DEVADDR, with this change between the read and the write. -/
def updating (a : RegAddr) (v : Register) : State :=
  { State.reset with
    binding := .stub, store := [(1, 0x0220)], latency := [0, 2],
    inputs := [.command 0x448020008, .deviceChange a v, .quiet] }

/-- P7 breaks `SingleWriter`; a change of the flags alone or of TEMP at the same moment does not (20_memory.md R49). -/
theorem test_single_writer_is_about_writable_fields :
    (stateOf (Sys2Proof.core.run 1 (updating 1 0x0620))).map singleWriterHere = some false ∧
      (stateOf (Sys2Proof.core.run 1 (updating 1 0xF223))).map singleWriterHere = some true ∧
      (stateOf (Sys2Proof.core.run 1 (updating 0 0x0C80))).map singleWriterHere = some true := by decide

/-! ### The Facade -/

/-- V-FAC-1, 3, 5, 8. -/
theorem test_facade_reads :
    [facadeOf (stub [(0, 0x0C80)] []) .getTemp 0, facadeOf (stub [] [true]) .getTemp 0,
      facadeOf (stub [(15, 0x1234)] []) .getId 15, facadeOf (stub [(1, 0x2A23)] []) .getCfg 1] =
    [some (some (.temperature 0x41C80000), [rd 0x48 0 (.ok 0x0C80)], 0x0C80),
      some (some (.temperature 0xC3800000), [rd 0x48 0 .fail], 0x0000),
      some (some (.register 0x1234), [rd 0x48 0x0F (.ok 0x1234)], 0x1234),
      some (some (.configuration
        ⟨false, false, true, false, .continuous, .cct4, .avg8, .alert, .activeLow, .alertStatus⟩),
        [rd 0x48 1 (.ok 0x2A23)], 0x2A23)] := by decide

/-- V-FAC-9, 12, 15. -/
theorem test_facade_writes :
    [facadeOf (stub [(2, 0x6000)] []) (.setHi 0x41F40000) 2, facadeOf (stub [(3, 0x8000)] [true]) (.setLo 0xC1200000) 3,
      facadeOf (stub [(1, 0x0220)] []) (.setCfg { noOverrides with
        therm := some .therm, pol := some .activeHigh, dr := some .dataReady }) 1] =
    [some (some (.register 0x0F40), [wr 0x48 2 0x0F40 (.ok 0x0F40)], 0x0F40),
      some (some .transportFailure, [wr 0x48 3 0xFB00 .fail], 0x8000),
      some (some (.register 0x023C), [rd 0x48 1 (.ok 0x0220), wr 0x48 1 0x023C (.ok 0x023C)], 0x023C)] := by
  decide

/-! ### Exact values of the boundary patterns, by hand from the binary32 format -/

theorem value_one : floatValue 0x3F800000#32 = 1 := by
  have h : floatSign 0x3F800000#32 = false ∧ floatSig 0x3F800000#32 = 2 ^ 23 ∧ floatScale 0x3F800000#32 = 127 := by decide
  simp only [floatValue, h.1, h.2.1, h.2.2]; norm_num

/-- The largest float below 256 (R84). -/
theorem value_below_256 : floatValue 0x437FFFFF#32 = 16777215 / 65536 := by
  have h : floatSign 0x437FFFFF#32 = false ∧ floatSig 0x437FFFFF#32 = 16777215 ∧ floatScale 0x437FFFFF#32 = 134 := by
    decide
  simp only [floatValue, h.1, h.2.1, h.2.2]; norm_num

/-- Its negative. -/
theorem value_above_minus_256 : floatValue 0xC37FFFFF#32 = -(16777215 / 65536) := by
  have h : floatSign 0xC37FFFFF#32 = true ∧ floatSig 0xC37FFFFF#32 = 16777215 ∧ floatScale 0xC37FFFFF#32 = 134 := by
    decide
  simp only [floatValue, h.1, h.2.1, h.2.2]; norm_num

/-- The lower edge of the in-range set (R84). -/
theorem value_lower_edge : floatValue 0xC38000FF#32 = -(8388863 / 32768) := by
  have h : floatSign 0xC38000FF#32 = true ∧ floatSig 0xC38000FF#32 = 8388863 ∧ floatScale 0xC38000FF#32 = 135 := by
    decide
  simp only [floatValue, h.1, h.2.1, h.2.2]; norm_num

/-- 256.0, the first out-of-range float above (R84). -/
theorem value_256 : floatValue 0x43800000#32 = 256 := by
  have h : floatSign 0x43800000#32 = false ∧ floatSig 0x43800000#32 = 2 ^ 23 ∧ floatScale 0x43800000#32 = 135 := by decide
  simp only [floatValue, h.1, h.2.1, h.2.2]; norm_num

/-! ### Witnesses: every statement with hypotheses is met by something -/

/-- The codec operations: an idle block, and operands at the ends of their ranges. -/
theorem witness_TdecGivesExactValue :
    State.reset.phase = .idle ∧ State.reset.facade = none ∧ (0x0000#16 = 0#16) ∧ (0x8000#16 ≠ 0#16) ∧
      tdec 0x8000 = tdec 0x8000 := by decide

theorem witness_TencTruncatesTowardZero :
    State.reset.phase = .idle ∧ State.reset.facade = none ∧ floatFinite 0x7F800000#32 = false ∧
      (floatFinite 0xC38000FF#32 = true ∧ -32768 ≤ truncQ (floatValue 0xC38000FF#32 * 128) ∧
        truncQ (floatValue 0xC38000FF#32 * 128) ≤ 32767) ∧
      (floatFinite 0x43800000#32 = true ∧ ¬(-32768 ≤ truncQ (floatValue 0x43800000#32 * 128) ∧
        truncQ (floatValue 0x43800000#32 * 128) ≤ 32767)) := by
  rw [value_lower_edge, value_256]
  refine ⟨rfl, rfl, by decide, ⟨by decide, ?_, ?_⟩, by decide, ?_⟩ <;> norm_num [truncQ]

/-- The two edges of the in-range set. -/
theorem witness_TempInRange : TempInRange 0xC38000FF#32 ∧ TempInRange 0x437FFFFF#32 := by
  refine ⟨⟨by decide, ?_, ?_⟩, ⟨by decide, ?_, ?_⟩⟩
  · rw [value_lower_edge]; norm_num
  · rw [value_lower_edge]; norm_num
  · rw [value_below_256]; norm_num
  · rw [value_below_256]; norm_num

theorem witness_TencInRangeInputs :
    TempInRange 0x437FFFFF#32 ∧ (0xC3800000#32 ≤ 0xC38000FF#32 ∧ 0xC38000FF#32 ≤ 0xC38000FF#32) :=
  ⟨witness_TempInRange.2, by decide⟩

theorem witness_TemperatureFloatRoundTrip : TempInRange 0xC38000FF#32 := witness_TempInRange.1

theorem witness_TencMonotoneAndOdd :
    (TempInRange 0xC38000FF#32 ∧ TempInRange 0x437FFFFF#32 ∧ floatValue 0xC38000FF#32 ≤ floatValue 0x437FFFFF#32) ∧
      TempInRange (floatNeg 0x437FFFFF#32) := by
  refine ⟨⟨witness_TempInRange.1, witness_TempInRange.2, ?_⟩, ?_⟩
  · rw [value_lower_edge, value_below_256]; norm_num
  · rw [show floatNeg 0x437FFFFF#32 = 0xC37FFFFF#32 by decide]
    refine ⟨by decide, ?_, ?_⟩ <;> rw [value_above_minus_256] <;> norm_num

theorem witness_CdecDecodesEveryField :
    State.reset.phase = .idle ∧ State.reset.facade = none ∧ (0x0800#16).extractLsb' 10 2 = 0b10#2 ∧
      (0x0C00#16).extractLsb' 10 2 ≠ 0b10#2 := by decide

theorem witness_CdecFoldsTheModeAlias :
    (0x0A20#16).extractLsb' 10 2 = 0b10#2 ∧ (0x0220#16).extractLsb' 10 2 = 0b00#2 := by decide

theorem witness_CencOrsFieldPatterns : State.reset.phase = .idle ∧ State.reset.facade = none := by decide

theorem witness_CeqComparesWritableFields :
    State.reset.phase = .idle ∧ State.reset.facade = none ∧
      (cdec 0xF220).mode = (cdec 0x0220).mode ∧ (cdec 0x0620).mode ≠ (cdec 0x0220).mode := by decide

/-- One word for each format, its ignored bits set. -/
theorem witness_CommandFormats :
    (0x0FFFF8000#35 : CmdWord).extractLsb' 32 3 = 0b000#3 ∧ (0x1FFFFFFFF#35 : CmdWord).extractLsb' 32 3 = 0b001#3 ∧
    (0x2FFFF0800#35 : CmdWord).extractLsb' 32 3 = 0b010#3 ∧
    ((0x3FFFFFFFF#35 : CmdWord).extractLsb' 32 3 = 0b011#3 ∧
      packRecord (cdec 0xFFFF) = (0x3FFFFFFFF#35 : CmdWord).extractLsb' 0 16 &&& 0xFFFC#16) ∧
    ((0x4C8C8F823#35 : CmdWord).extractLsb' 32 3 = 0b100#3 ∧
      overridesOf ((0x4C8C8F823#35 : CmdWord).extractLsb' 16 6) ((0x4C8C8F823#35 : CmdWord).extractLsb' 2 10) =
        some { noOverrides with avg := some .avg8 }) ∧
    ((0x5FFFF0003#35 : CmdWord).extractLsb' 32 3 = 0b101#3 ∧
      packRecord (cdec 0xFFFF) = (0x5FFFF0003#35 : CmdWord).extractLsb' 16 16 &&& 0xFFFC#16 ∧
      packRecord (cdec 0x0000) = (0x5FFFF0003#35 : CmdWord).extractLsb' 0 16 &&& 0xFFFC#16) := by decide

theorem witness_OverridesFollowPresenceMask :
    overridesOf 0b000000 0b1011111111 = some noOverrides ∧
      overridesOf 0b111111 0b1111111111 =
        some ⟨some .oneshot, some .cct7, some .avg64, some .therm, some .activeHigh, some .dataReady⟩ := by decide

theorem witness_RecordPackingIsBijection : unpackRecord 0xFFFF#16 = some (cdec 0xFFFF#16) := by decide

/-- A state with this word presented and no operation in flight. -/
def presented (w : CmdWord) : State := { State.reset with inputs := [.command w] }

theorem witness_ReservedCommandsAreRefused :
    (presented 0x448200800).phase = .idle ∧ (presented 0x448200800).facade = none ∧
      (presented 0x448200800).inputs = [.command 0x448200800] ∧
      decode 0x448200800 = .error .reservedModeOverride := by decide

theorem witness_StepRunsWhatIsPresented :
    ((presented 0x000000C80).phase = .idle ∧ (presented 0x000000C80).facade = none ∧
      (presented 0x000000C80).inputs = [.command 0x000000C80] ∧ decode 0x000000C80 = .ok (.tdec 0x0C80)) ∧
    ({ State.reset with inputs := [.pseudo .getId] } : State).inputs = [.pseudo .getId] := by decide

/-- A CMRG whose read is outstanding, a write outstanding, and a GETTEMP whose read is outstanding. -/
def reading : State :=
  { external [.ok 0x0220] with
    phase := .rdWait, ovr := { noOverrides with mode := some .shutdown }, latched := 0x48,
    call := some { req := .rd 0x48 addrCfg, left := 1 } }
def writing : State :=
  { external [.ok 0x0620] with
    phase := .wrWait, ovr := { noOverrides with mode := some .shutdown }, latched := 0x48, cand := 0x0620,
    call := some { req := .wr 0x48 addrCfg 0x0620, left := 1 } }
def readingTemp : State :=
  { external [] with facade := some .getTemp, call := some { req := .rd 0x48 addrTemp, left := 0 } }

theorem witness_CommandWaitsWhileBusy :
    reading.phase ≠ .idle ∧ readingTemp.facade.isSome = true ∧
      ({ reading with inputs := [.command 0x000000C80] } : State).inputs = [.command 0x000000C80] ∧
      ({ readingTemp with inputs := [.pseudo .getId] } : State).inputs = [.pseudo .getId] := by decide

theorem witness_CmrgNoOpGuard :
    State.reset.phase = .idle ∧ State.reset.facade = none ∧ noOverrides.mode = none ∧ noOverrides.conv = none ∧
      noOverrides.avg = none ∧ noOverrides.therm = none ∧ noOverrides.pol = none ∧ noOverrides.dr = none := by decide

/-- Overrides at the ends of the partial range: one, five; and all six. -/
def oneOverride : Overrides := { noOverrides with mode := some .shutdown }
def fiveOverrides : Overrides := ⟨some .shutdown, some .cct1, some .avg1, some .therm, some .activeHigh, none⟩
def sixOverrides : Overrides :=
  ⟨some .oneshot, some .cct0, some .avg1, some .alert, some .activeLow, some .alertStatus⟩

theorem witness_counts : oneOverride.count = 1 ∧ fiveOverrides.count = 5 ∧ sixOverrides.count = 6 := by decide

theorem witness_CmrgFastPath :
    let s := external [.ok 0x0C00]
    s.phase = .idle ∧ s.facade = none ∧ s.binding = .external ∧ s.answers = [.ok 0x0C00] ∧ s.latency.headD 0 = 0 := by
  decide

theorem witness_CmrgReadFailure :
    let s := external [.fail]
    s.phase = .idle ∧ s.facade = none ∧ 1 ≤ oneOverride.count ∧ fiveOverrides.count ≤ 5 ∧ s.binding = .external ∧
      s.answers = [.fail] ∧ s.latency.headD 0 = 0 := by decide

theorem witness_MergeReplacesOverriddenFields :
    oneOverride.mode = some .shutdown ∧ oneOverride.conv = none ∧ fiveOverrides.conv = some .cct1 ∧
      fiveOverrides.avg = some .avg1 ∧ fiveOverrides.therm = some .therm ∧ fiveOverrides.pol = some .activeHigh ∧
      fiveOverrides.dr = none ∧ sixOverrides.dr = some .alertStatus ∧ noOverrides.mode = none ∧ oneOverride.avg = none ∧
      oneOverride.therm = none ∧ oneOverride.pol = none := by decide

theorem witness_CmrgShortCircuit :
    let s := external [.ok 0x2620]
    s.phase = .idle ∧ s.facade = none ∧ 1 ≤ oneOverride.count ∧ oneOverride.count ≤ 5 ∧ s.binding = .external ∧
      s.answers = [.ok 0x2620] ∧ s.latency.headD 0 = 0 ∧ ceq (oneOverride.merge (cdec 0x2620)) (cdec 0x2620) = true := by
  decide

theorem witness_CmrgRealUpdate :
    let s := external [.ok 0x0220, .fail]
    s.phase = .idle ∧ s.facade = none ∧ 1 ≤ fiveOverrides.count ∧ fiveOverrides.count ≤ 5 ∧ s.binding = .external ∧
      s.answers = [.ok 0x0220, .fail] ∧ s.latency.headD 0 = 0 ∧ s.latency.tail.headD 0 = 0 ∧
      ceq (fiveOverrides.merge (cdec 0x0220)) (cdec 0x0220) = false := by decide

theorem witness_CmrgAcceptanceIssuesRequest :
    (let s := { external [.fail] with latency := [1] }
     s.phase = .idle ∧ s.facade = none ∧ s.latency.headD 0 = 1 ∧ 1 ≤ 1) ∧
    (let s := external []
     s.phase = .idle ∧ s.facade = none ∧ s.latency.headD 0 = 0 ∧ s.binding = .external ∧ s.answers = []) ∧
    sixOverrides.count = 6 ∧ 1 ≤ oneOverride.count ∧ fiveOverrides.count ≤ 5 := by decide

/-- A SETCFG whose CMRG waits for its write. -/
def writingForSetCfg : State := { writing with facade := some (.setCfg oneOverride) }

/-- The six rows: read failed, read short-circuits, read then a write that waits, read then a write answered at once, write
failed, write echoed; and the three ways a SETCFG's CMRG can stand after the step. -/
theorem witness_PhaseTransitionsOnAnswer :
    (reading.facade = none ∧ nothingElsePresented reading = true ∧ reading.binding = .external ∧ reading.answers = [.ok 0x0220] ∧
      reading.call = some ⟨.rd 0x48 addrCfg, 1⟩ ∧ reading.phase = .rdWait ∧
      ({ reading with answers := [.fail] } : State).answers = [.fail] ∧
      cenc (reading.ovr.merge (cdec 0x0620)) = cenc (cdec 0x0620) ∧
      cenc (reading.ovr.merge (cdec 0x0220)) ≠ cenc (cdec 0x0220) ∧
      ({ reading with latency := [1] } : State).latency.headD 0 = 1 ∧ reading.latency.headD 0 = 0 ∧
      ({ reading with answers := [.ok 0x0220, .ok 0x0620] } : State).answers = [.ok 0x0220, .ok 0x0620]) ∧
    (writing.facade = none ∧ nothingElsePresented { writing with inputs := [.command 0x000000C80] } = true ∧ writing.binding = .external ∧ writing.answers = [.ok 0x0620] ∧
      writing.call = some ⟨.wr 0x48 addrCfg 0x0620, 1⟩ ∧ writing.phase = .wrWait ∧
      ({ writing with answers := [.fail] } : State).answers = [.fail]) ∧
    (writingForSetCfg.facade = some (.setCfg oneOverride) ∧ writingForSetCfg.phase ≠ .idle ∧
      nothingElsePresented writingForSetCfg = true) ∧
    (∃ t, step { writingForSetCfg with facade := none, answers := [] } = .next t ∧ t.phase ≠ .idle) ∧
    (∃ t, step { writingForSetCfg with facade := none } = .next t ∧ t.phase = .idle ∧ t.result = some (.reg 0x0620)) ∧
    (∃ t, step { writingForSetCfg with facade := none, answers := [.fail] } = .next t ∧ t.phase = .idle ∧
      t.result = some .transportFailure) :=
  ⟨by decide, by decide, by decide, ⟨_, rfl, by decide⟩, ⟨_, rfl, by decide⟩, ⟨_, rfl, by decide⟩⟩

theorem witness_CmrgCallsReadThenWriteAtMost : State.reset.phase = .idle ∧ State.reset.facade = none := by decide

theorem witness_CmrgIgnoresFlagsAndReservedBits : 0xF003#16 &&& 0x0FFC#16 = 0#16 := by decide

theorem witness_CmrgLeavesTheRestUnchanged :
    (∃ t, State.reset.phase = .idle ∧ State.reset.facade = none ∧
      exec (.cmrg 0x48 oneOverride) State.reset = .next t) ∧
    noOverrides.count = 0 ∧ (2 : Nat) ≠ addrCfg.toNat := ⟨⟨_, rfl, rfl, rfl⟩, by decide⟩

theorem witness_CmrgResultIsCandidateUnderEcho :
    ∃ t, (external [.ok 0x0220, .ok 0x0620]).phase = .idle ∧ (external [.ok 0x0220, .ok 0x0620]).facade = none ∧
      exec (.cmrg 0x48 oneOverride) (external [.ok 0x0220, .ok 0x0620]) = .next t ∧ t.result = some (.reg 0x0620) ∧
      t.history = [rd 0x48 1 (.ok 0x0220), wr 0x48 1 0x0620 (.ok 0x0620)] ∧ EchoEqualsWritten t.history := by
  refine ⟨_, rfl, rfl, rfl, by decide, by decide, ?_⟩
  intro d a v e h
  have h' : ({ req := .wr d a v, outcome := .ok e } : Event) ∈
      [rd 0x48 1 (.ok 0x0220), wr 0x48 1 0x0620 (.ok 0x0620)] := h
  simp [rd, wr] at h'
  rw [h'.2, h'.1.2.2]

theorem witness_CmrgUpdatesStubRegister :
    let s := stub [(1, 0xA223), (2, 0x6000)] []
    s.phase = .idle ∧ s.facade = none ∧ s.binding = .stub ∧ s.failScript = [] ∧ s.latency = [] ∧ s.store.wf = true ∧
      1 ≤ oneOverride.count ∧ (2 : Nat) ≠ 1 := by decide

theorem witness_CmrgNeverReturnsUnanswered :
    ∃ t, (external []).phase = .idle ∧ (external []).facade = none ∧ (external []).inputs = [] ∧
      (external []).binding = .external ∧ (external []).answers = [] ∧ 1 ≤ sixOverrides.count ∧
      exec (.cmrg 0x48 sixOverrides) (external []) = .next t := ⟨_, rfl, rfl, rfl, rfl, rfl, by decide, rfl⟩

/-- An idle state that meets the invariant, with a CMRG presented and answers that take their time. -/
def aboutToMerge : State :=
  { State.reset with
    inputs := [.command (encode (.cmrg 0x48 oneOverride))], answers := [.ok 0x0220, .ok 0x0620], latency := [2, 3] }

theorem aboutToMerge_inv : MachineInv aboutToMerge :=
  ⟨by decide, by simp [aboutToMerge, State.reset, Config.devAddrSet], by simp [aboutToMerge, State.reset], rfl⟩

theorem witness_MergeEngineRefinesFunction :
    MachineInv aboutToMerge ∧ aboutToMerge.phase = .idle ∧ aboutToMerge.facade = none ∧
      aboutToMerge.binding = .external ∧ aboutToMerge.inputs = [.command (encode (.cmrg 0x48 oneOverride))] ∧
      cmrgFunction 0x48 oneOverride aboutToMerge.answers =
        some (.reg 0x0620, [rd 0x48 1 (.ok 0x0220), wr 0x48 1 0x0620 (.ok 0x0620)]) :=
  ⟨aboutToMerge_inv, by decide⟩

theorem witness_OperationsKeepNothing : State.reset.phase = .idle ∧ State.reset.facade = none := by decide

theorem witness_OperationsFailOnlyAsListed :
    ∃ t u, (external [.fail]).phase = .idle ∧ (external [.fail]).facade = none ∧
      exec (.cmrg 0x48 noOverrides) (external [.fail]) = .next t ∧ noOverrides.count = 0 ∧
      t.result = some .noOpRequested ∧
      exec (.cmrg 0x48 oneOverride) (external [.fail]) = .next u ∧ u.result = some .transportFailure :=
  ⟨_, _, rfl, rfl, rfl, by decide, by decide, rfl, by decide⟩

theorem witness_CodecOperationsTouchNothingElse :
    State.reset.phase = .idle ∧ State.reset.facade = none ∧ ∀ d o, Instr.tdec 0 ≠ .cmrg d o :=
  ⟨rfl, rfl, fun _ _ h => Instr.noConfusion h⟩

theorem witness_ResultWordLayout :
    ({ State.reset with result := some (.float 0xC3800000) } : State).result = some (.float 0xC3800000) ∧
    ({ State.reset with result := some (.reg 0xFFFF) } : State).result = some (.reg 0xFFFF) ∧
    ({ State.reset with result := some (.cfg (cdec 0xFFFF)) } : State).result = some (.cfg (cdec 0xFFFF)) ∧
    ({ State.reset with result := some (.eq true) } : State).result = some (.eq true) ∧
    ({ State.reset with result := some .noOpRequested } : State).result = some .noOpRequested ∧
    ({ State.reset with result := some .transportFailure } : State).result = some .transportFailure :=
  ⟨rfl, rfl, rfl, rfl, rfl, rfl⟩

theorem witness_StubFollowsItsScript :
    (stub [(1, 0x0220)] [true]).binding = .stub ∧ (stub [(1, 0x0220)] [true]).store.wf = true ∧
      (stub [(1, 0x0220)] [true]).failScript.headD false = true ∧
      (stub [(1, 0x0220)] []).failScript.headD false = false := by decide

theorem witness_GetTempReadsOrGivesSentinel :
    let s := external [.fail]
    s.phase = .idle ∧ s.facade = none ∧ s.binding = .external ∧ s.answers = [.fail] ∧ s.latency.headD 0 = 0 := by decide

theorem witness_FacadeReadsReturnRegisterOrFailure :
    (let s := external [.ok 0x2A23]
     s.phase = .idle ∧ s.facade = none ∧ s.binding = .external ∧ s.answers = [.ok 0x2A23] ∧ s.latency.headD 0 = 0) ∧
    (let s := external [.fail]
     s.phase = .idle ∧ s.facade = none ∧ s.binding = .external ∧ s.answers = [.fail] ∧ s.latency.headD 0 = 0) := by
  decide

/-- Each way the CMRG can stand: waiting, done, nothing requested, failed. -/
theorem witness_SetCfgDelegatesToCmrg :
    (∃ t, exec (.cmrg 0x48 oneOverride) (external []) = .next t ∧ t.phase ≠ .idle) ∧
    (∃ t, exec (.cmrg 0x48 oneOverride) (external [.ok 0x0620]) = .next t ∧ t.phase = .idle ∧
      t.result = some (.reg 0x0620)) ∧
    (∃ t, exec (.cmrg 0x48 noOverrides) (external []) = .next t ∧ t.phase = .idle ∧ t.result = some .noOpRequested) ∧
    (∃ t, exec (.cmrg 0x48 oneOverride) (external [.fail]) = .next t ∧ t.phase = .idle ∧
      t.result = some .transportFailure) :=
  ⟨⟨_, rfl, by decide⟩, ⟨_, rfl, by decide⟩, ⟨_, rfl, by decide⟩, ⟨_, rfl, by decide⟩⟩

theorem witness_SetLimitsWriteUnconditionally :
    let s := external [.ok 0x0F40]
    s.phase = .idle ∧ s.facade = none ∧ s.binding = .external ∧ s.answers = [.ok 0x0F40] ∧ s.latency.headD 0 = 0 := by
  decide

/-- There are members of DEVADDR_SET and, it having four of 128 values, addresses that are none. -/
theorem witness_SetAddrReaddresses :
    Config.devAddrStrap 3 ∈ Config.devAddrSet ∧ ∃ a : DevAddr, a ∉ Config.devAddrSet := by
  refine ⟨by simp [Config.devAddrSet], ?_⟩
  by_contra h
  have h' : ∀ a : DevAddr, a ∈ Config.devAddrSet := fun a => by by_contra ha; exact h ⟨a, ha⟩
  have h0 := h' 0; have h1 := h' 1; have h2 := h' 2; have h3 := h' 3; have h4 := h' 4
  simp only [Config.devAddrSet, List.mem_cons, List.not_mem_nil, or_false] at h0 h1 h2 h3 h4
  generalize Config.devAddrStrap 0 = a at *
  generalize Config.devAddrStrap 1 = b at *
  generalize Config.devAddrStrap 2 = c at *
  generalize Config.devAddrStrap 3 = d at *
  bv_omega

theorem witness_FacadeLeavesTheRestUnchanged :
    ∃ t, (external []).phase = .idle ∧ (external []).facade = none ∧
      execPseudo (.setHi 0x41F40000) (external []) = .next t ∧ (∀ d, Pseudo.setHi 0x41F40000 ≠ .setAddr d) ∧
      (∀ o, Pseudo.setHi 0x41F40000 ≠ .setCfg o) ∧ (3 : Nat) ≠ addrHigh.toNat :=
  ⟨_, rfl, rfl, rfl, fun _ h => Pseudo.noConfusion h, fun _ h => Pseudo.noConfusion h, by decide⟩

theorem witness_DevaddrMutationInFlightRefused :
    ({ reading with inputs := [.mutateDevaddr 0x49] } : State).inputs = [.mutateDevaddr 0x49] ∧
      ({ reading with inputs := [.mutateDevaddr 0x49] } : State).phase ≠ .idle ∧
      ({ readingTemp with inputs := [.mutateDevaddr 0x49] } : State).facade.isSome = true ∧
      State.reset.phase = .idle ∧ State.reset.facade = none ∧ Config.devAddrStrap 0 ∈ Config.devAddrSet :=
  ⟨rfl, by decide, rfl, rfl, rfl, by simp [Config.devAddrSet]⟩

theorem witness_ResetAbandonsOperation :
    ({ writing with inputs := [.reset] } : State).inputs = [.reset] ∧ writing.phase = .wrWait := by decide

theorem witness_StepKeepsInvariant : MachineInv aboutToMerge ∧ ∃ t, step aboutToMerge = .next t :=
  ⟨aboutToMerge_inv, _, rfl⟩

/-- Each kind of refusal is met. -/
theorem witness_StepRefusesOnlyWhatIsReserved :
    step (presented 0x600000000) = .refused (.reservedCommand .reservedOp) ∧
      step { reading with inputs := [.mutateDevaddr 0x49] } = .refused .devaddrChangedInFlight ∧
      ∃ a : DevAddr, step { State.reset with inputs := [.pseudo (.setAddr a)] } = .refused .devaddrOutsideSet := by
  refine ⟨rfl, rfl, ?_⟩
  obtain ⟨a, ha⟩ := witness_SetAddrReaddresses.2
  have h : WellFormed.pseudo (.setAddr a) = false := by simpa [WellFormed.pseudo] using ha
  exact ⟨a, by simp [step, fetch, State.ready, State.reset, execPseudo, setAddr, h]⟩

theorem witness_OnlySetAddrChangesDevaddr :
    ∃ t, step { State.reset with devaddr := Config.devAddrStrap 0 + 1, inputs := [.pseudo (.setAddr (Config.devAddrStrap 0))] } =
      .next t ∧ t.devaddr ≠ Config.devAddrStrap 0 + 1 := by
  refine ⟨_, by simp [step, fetch, State.ready, State.reset, execPseudo, setAddr, WellFormed.pseudo, Config.devAddrSet]; rfl,
    ?_⟩
  simp

/-- A step that issues nothing yet, one that adds an event, and a reset that empties the history. -/
theorem witness_HistoryOnlyGrows :
    (∃ t, step aboutToMerge = .next t) ∧ (∃ t, step reading = .next t ∧ t.history = [rd 0x48 1 (.ok 0x0220)]) ∧
      ∃ t, step { reading with history := [rd 0x48 1 .fail], inputs := [.reset] } = .next t ∧ t.history = [] :=
  ⟨⟨_, rfl⟩, ⟨_, rfl, by decide⟩, ⟨_, rfl, rfl⟩⟩

/-- A delay and a silent transport; a Facade operation and a CMRG whose call is not answered. -/
theorem witness_FacadeIssuesOneCallAndWaits :
    (let s := { external [.ok 0x0C80] with latency := [2] }
     s.phase = .idle ∧ s.facade = none ∧ s.latency.headD 0 = 2 ∧ 1 ≤ 2) ∧
    (let s := external []
     s.phase = .idle ∧ s.facade = none ∧ s.latency.headD 0 = 0 ∧ s.binding = .external ∧ s.answers = []) ∧
    (readingTemp.facade.isSome = true ∧ nothingElsePresented readingTemp = true ∧
      readingTemp.call = some ⟨.rd 0x48 addrTemp, 0⟩ ∧ readingTemp.binding = .external ∧ readingTemp.answers = []) ∧
    (let s := { reading with call := some ⟨.rd 0x48 addrCfg, 2⟩, inputs := [.pseudo .getId] }
     s.phase ≠ .idle ∧ nothingElsePresented s = true ∧ s.call = some ⟨.rd 0x48 addrCfg, 2⟩) := by decide

/-- Each Facade operation with a call outstanding, at both ends of the delay, answered and failed. -/
theorem witness_FacadeReturnsWhenAnswered :
    (let s := { readingTemp with answers := [.ok 0x8000] }
     s.phase = .idle ∧ nothingElsePresented s = true ∧ s.binding = .external ∧ s.answers = [.ok 0x8000] ∧
       s.call = some ⟨.rd 0x48 addrTemp, 0⟩ ∧ s.facade = some .getTemp) ∧
    ({ readingTemp with answers := [.fail], call := some ⟨.rd 0x48 addrTemp, 1⟩ } : State).call =
      some ⟨.rd 0x48 addrTemp, 1⟩ ∧
    ({ readingTemp with facade := some .getId } : State).facade = some .getId ∧
    ({ readingTemp with facade := some .getCfgRaw } : State).facade = some .getCfgRaw ∧
    ({ readingTemp with facade := some .getCfg } : State).facade = some .getCfg ∧
    ({ readingTemp with facade := some (.setHi 0x41F40000) } : State).facade = some (.setHi 0x41F40000) ∧
    ({ readingTemp with facade := some (.setLo 0xC1200000) } : State).facade = some (.setLo 0xC1200000) := by decide

/-- The device clears and sets flags between the read and the write: `SingleWriter` holds, and the CMRG completes. -/
def flagsChanging : State := updating 1 0xF223

theorem flagsChanging_inv : MachineInv flagsChanging :=
  ⟨by decide, by simp [flagsChanging, updating, State.reset, Config.devAddrSet],
    by simp [flagsChanging, updating, State.reset], rfl⟩

theorem flagsChanging_singleWriter : SingleWriter 2 flagsChanging := by
  intro k t hk h
  have e : ∃ u, Sys2Proof.core.run k flagsChanging = .next u ∧ singleWriterHere u = true := by
    obtain rfl | rfl | rfl : k = 0 ∨ k = 1 ∨ k = 2 := by omega
    all_goals exact ⟨_, rfl, by decide⟩
  obtain ⟨u, hu, hs⟩ := e
  rw [hu] at h
  cases h
  exact hs

theorem witness_SingleWriterPreventsLostUpdates :
    (MachineInv flagsChanging ∧ ReadIsCurrent flagsChanging ∧ singleWriterHere flagsChanging = true ∧
      ∃ t, step flagsChanging = .next t) ∧
    flagsChanging.phase = .idle ∧ flagsChanging.binding = .stub ∧ SingleWriter 2 flagsChanging ∧
    ∃ u t, Sys2Proof.core.run 2 flagsChanging = .next u ∧ betweenReadAndWrite u = true ∧ step u = .next t ∧
      t.phase = .idle ∧ t.result = some (.reg 0x0228) :=
  ⟨⟨flagsChanging_inv, fun h => absurd h (by decide), by decide, _, rfl⟩, rfl, rfl, flagsChanging_singleWriter,
    _, _, rfl, by decide, rfl, by decide, by decide⟩

end Sys2Proof.Tests
end

section
/-! PROOFS. The word of a CMRG decodes to the CMRG. -/

namespace Sys2Proof

/-- A field reads back at its place. -/
@[simp] theorem extractLsb'_field_same {w n k : Nat} (b : BitVec w) (h : k + w ≤ n) :
    (field n k b).extractLsb' k w = b := by
  apply BitVec.eq_of_getLsbD_eq
  intro i hi
  have hn : k + i < n := by omega
  simp [hi, hn]

/-- A field is zero away from its place. -/
@[simp] theorem extractLsb'_field_other {w n k j m : Nat} (b : BitVec w) (h : j + m ≤ k ∨ k + w ≤ j) :
    (field n k b).extractLsb' j m = 0 := by
  apply BitVec.eq_of_getLsbD_eq
  intro i hi
  simp only [BitVec.getLsbD_extractLsb', getLsbD_field]
  obtain h | h := h
  · have hk : ¬ k ≤ j + i := by omega
    simp [hk]
  · have hb : b.getLsbD (j + i - k) = false := BitVec.getLsbD_of_ge _ _ (by omega)
    simp [hb]

/-! ### The presence mask and the value bits read back (30_encoding.md R62, R64) -/

/-- An override read back from its presence bit and its value bits. -/
theorem present_map_getD {α : Type} {w : Nat} {bits : α → BitVec w} {ofBits : BitVec w → α}
    (h : ∀ a, ofBits (bits a) = a) (x : Option α) : present x.isSome (ofBits ((x.map bits).getD 0)) = x := by
  cases x with
  | none => rfl
  | some a => simp [present, h]

theorem valueBits_mode (o : Overrides) : o.valueBits.extractLsb' 8 2 = (o.mode.map Mode.bits).getD 0 := by
  simp [Overrides.valueBits, BitVec.extractLsb'_or]

theorem valueBits_conv (o : Overrides) : o.valueBits.extractLsb' 5 3 = (o.conv.map CycleTime.bits).getD 0 := by
  simp [Overrides.valueBits, BitVec.extractLsb'_or]

theorem valueBits_avg (o : Overrides) : o.valueBits.extractLsb' 3 2 = (o.avg.map Averages.bits).getD 0 := by
  simp [Overrides.valueBits, BitVec.extractLsb'_or]

theorem valueBits_therm (o : Overrides) : o.valueBits.extractLsb' 2 1 = (o.therm.map ThermalAlert.bits).getD 0 := by
  simp [Overrides.valueBits, BitVec.extractLsb'_or]

theorem valueBits_pol (o : Overrides) : o.valueBits.extractLsb' 1 1 = (o.pol.map Polarity.bits).getD 0 := by
  simp [Overrides.valueBits, BitVec.extractLsb'_or]

theorem valueBits_dr (o : Overrides) : o.valueBits.extractLsb' 0 1 = (o.dr.map DataReadySelect.bits).getD 0 := by
  simp [Overrides.valueBits, BitVec.extractLsb'_or]

/-- The overrides are spelt by their presence mask and value bits. -/
theorem overridesOf_bits (o : Overrides) : overridesOf o.presentBits o.valueBits = some o := by
  have h5 : o.presentBits.getLsbD 5 = o.mode.isSome := by simp [Overrides.presentBits]
  have h4 : o.presentBits.getLsbD 4 = o.conv.isSome := by simp [Overrides.presentBits]
  have h3 : o.presentBits.getLsbD 3 = o.avg.isSome := by simp [Overrides.presentBits]
  have h2 : o.presentBits.getLsbD 2 = o.therm.isSome := by simp [Overrides.presentBits]
  have h1 : o.presentBits.getLsbD 1 = o.pol.isSome := by simp [Overrides.presentBits]
  have h0 : o.presentBits.getLsbD 0 = o.dr.isSome := by simp [Overrides.presentBits]
  unfold overridesOf
  rw [h5, h4, h3, h2, h1, h0, valueBits_mode, valueBits_conv, valueBits_avg, valueBits_therm, valueBits_pol,
    valueBits_dr, present_map_getD CycleTime.ofBits_bits, present_map_getD Averages.ofBits_bits,
    present_map_getD ThermalAlert.ofBits_bits, present_map_getD Polarity.ofBits_bits,
    present_map_getD DataReadySelect.ofBits_bits]
  obtain ⟨mode, conv, avg, therm, pol, dr⟩ := o
  cases mode with
  | none => simp
  | some m => simp

/-! ### The fields of a CMRG's word, format M (30_encoding.md R62) -/

theorem encode_cmrg_ovrPresent (d : DevAddr) (o : Overrides) :
    (encode (.cmrg d o)).ovrPresent = o.presentBits := by
  rw [CmdWord.ovrPresent, Laws.encode_operand _ _ _ (by omega)]
  simp [Instr.operand, BitVec.extractLsb'_or]

theorem encode_cmrg_ovrValue (d : DevAddr) (o : Overrides) : (encode (.cmrg d o)).ovrValue = o.valueBits := by
  rw [CmdWord.ovrValue, Laws.encode_operand _ _ _ (by omega)]
  simp [Instr.operand, BitVec.extractLsb'_or]

theorem encode_cmrg_devaddr (d : DevAddr) (o : Overrides) : (encode (.cmrg d o)).devaddr = d := by
  rw [CmdWord.devaddr, Laws.encode_operand _ _ _ (by omega)]
  simp [Instr.operand, BitVec.extractLsb'_or]

theorem decode_encode_cmrg (d : DevAddr) (o : Overrides) : decode (encode (.cmrg d o)) = .ok (.cmrg d o) := by
  have hop : (encode (.cmrg d o)).op = 0b100#3 := Laws.encode_op _
  simp [decode, hop, encode_cmrg_ovrPresent, encode_cmrg_ovrValue, encode_cmrg_devaddr, overridesOf_bits]

end Sys2Proof
end

section
/-! PROOFS. What the later proofs cite: the engine, an equation per case; the codec operations; what a step takes up. -/

namespace Sys2Proof.Machine

/-! ### The engine, an equation per case -/

theorem cmrgAccept_none {o : Overrides} (h : o.count = 0) (d : DevAddr) (s : State) :
    cmrgAccept d o s = State.complete .noOpRequested { s with ovr := o, latched := d, result := none } := by
  simp [cmrgAccept, h]

theorem cmrgAccept_all {o : Overrides} (h : o.count = 6) (d : DevAddr) (s : State) :
    cmrgAccept d o s = State.issue (.wr d addrCfg (cenc (o.merge blankConfiguration)))
      { s with ovr := o, latched := d, result := none, cand := cenc (o.merge blankConfiguration),
               phase := .wrWait } := by
  simp [cmrgAccept, h]

theorem cmrgAccept_partial {o : Overrides} (h0 : o.count ≠ 0) (h6 : o.count ≠ 6) (d : DevAddr) (s : State) :
    cmrgAccept d o s = State.issue (.rd d addrCfg)
      { s with ovr := o, latched := d, result := none, phase := .rdWait } := by
  simp [cmrgAccept, h0, h6]

theorem readAnswered_unchanged {r : Register} {s : State} (h : cenc (s.ovr.merge (cdec r)) = cenc (cdec r)) :
    readAnswered (.ok r) s = State.complete (.reg (cenc (s.ovr.merge (cdec r))))
      { s with cur := r, cand := cenc (s.ovr.merge (cdec r)) } := by
  simp [readAnswered, h]

theorem readAnswered_changed {r : Register} {s : State} (h : cenc (s.ovr.merge (cdec r)) ≠ cenc (cdec r)) :
    readAnswered (.ok r) s = State.issue (.wr s.latched addrCfg (cenc (s.ovr.merge (cdec r))))
      { s with cur := r, cand := cenc (s.ovr.merge (cdec r)), phase := .wrWait } := by
  simp [readAnswered, h]

theorem writeAnswered_eq_complete (a : Answer) (s : State) : writeAnswered a s = s.complete (writeResult a) := by
  cases a with
  | ok e => rfl
  | fail => rfl

theorem readAnswered_phase_ne (a : Answer) (s : State) : (readAnswered a s).phase ≠ .rdWait := by
  cases a with
  | fail => simp [readAnswered]
  | ok r =>
    by_cases h : cenc (s.ovr.merge (cdec r)) = cenc (cdec r)
    · simp [readAnswered_unchanged h]
    · simp [readAnswered_changed h]

/-- Out of RD_WAIT a second transition does nothing. -/
theorem runEngine_of_not_reading {s : State} (h : s.phase ≠ .rdWait) : runEngine s = engine s := by
  cases hp : s.phase with
  | idle => rw [runEngine, engine_idle hp, engine_idle hp]
  | rdWait => exact absurd hp h
  | wrWait => exact runEngine_write hp

/-- In RD_WAIT the engine goes on as it does from the state that the read's answer leaves. -/
theorem runEngine_read {s t : State} {a : Answer} (hp : s.phase = .rdWait) (h : s.respond = some (a, t)) :
    runEngine s = runEngine (readAnswered a t) := by
  rw [runEngine, engine_read hp h, runEngine_of_not_reading (readAnswered_phase_ne a t)]

/-! ### The operations and the step -/

/-- An operation other than CMRG, presented to an idle block, ends at once with a result of its operands alone
(40_temperature_codec.md R89, 41_configuration_codec.md R99). -/
theorem exec_codec {i : Instr} (hi : ∀ d o, i ≠ .cmrg d o) :
    ∃ r, ∀ s : State, s.phase = .idle → s.facade = none →
      exec i s = .next { s with result := some r, phase := .idle, epoch := s.epoch + 1 } := by
  have key (r : Result) (s : State) (hp : s.phase = .idle) (hf : s.facade = none) :
      s.whenReady (s.complete r) = .next { s with result := some r, phase := .idle, epoch := s.epoch + 1 } := by
    rw [State.whenReady_ready _ _ ((State.ready_iff s).2 ⟨hp, hf⟩), State.complete_of_no_facade r s hf]
  cases i with
  | tdec r => exact ⟨_, key _⟩
  | tenc f => exact ⟨_, key _⟩
  | cdec r => exact ⟨_, key _⟩
  | cenc c => exact ⟨_, key _⟩
  | ceq a b => exact ⟨_, key _⟩
  | cmrg d o => exact absurd rfl (hi d o)

/-- A step that is presented a CMRG in an idle block runs the engine from its acceptance. -/
theorem step_cmrg_ready {d : DevAddr} {o : Overrides} {s : State} {rest : List Input} (hp : s.phase = .idle)
    (hf : s.facade = none) (hi : s.inputs = .command (encode (.cmrg d o)) :: rest) :
    step s = .next (runEngine (cmrgAccept d o { s with inputs := rest })) := by
  rw [← exec_cmrg_ready (s := { s with inputs := rest }) hp hf]
  simp [step, fetch, hi, (State.ready_iff s).2 ⟨hp, hf⟩, decode_encode_cmrg]

theorem facadeRun_idle {s : State} (h : s.facade = none) : facadeRun s = s := by simp [facadeRun, h]

/-- What a step that answers `t` took up of the inputs (00_scope.md R12, 70_reset_and_hazards.md R162, R163). -/
inductive StepTakes (s t : State) : Prop
  | goesOn (ht : t = await s)
  | quiet (rest : List Input) (hi : s.inputs = .quiet :: rest) (ht : t = await { s with inputs := rest })
  | deviceChange (a : RegAddr) (v : Register) (rest : List Input) (hi : s.inputs = .deviceChange a v :: rest)
      (ht : t = await (State.changeDevice a v { s with inputs := rest }))
  | reset (rest : List Input) (hi : s.inputs = .reset :: rest) (ht : t = State.resetBlock { s with inputs := rest })
  | command (w : CmdWord) (i : Instr) (rest : List Input) (hi : s.inputs = .command w :: rest)
      (hr : s.ready = true) (hw : decode w = .ok i) (ht : exec i { s with inputs := rest } = .next t)
  | pseudo (p : Pseudo) (rest : List Input)
      (hi : s.inputs = .pseudo p :: rest ∨ ∃ a, p = .setAddr a ∧ s.inputs = .mutateDevaddr a :: rest)
      (hr : s.ready = true) (ht : execPseudo p { s with inputs := rest } = .next t)

theorem step_takes {s t : State} (h : step s = .next t) : StepTakes s t := by
  unfold step fetch at h
  cases hi : s.inputs with
  | nil => simp only [hi] at h; cases h; exact .goesOn rfl
  | cons x rest =>
    cases x with
    | quiet => simp only [hi] at h; cases h; exact .quiet rest hi rfl
    | reset => simp only [hi] at h; cases h; exact .reset rest hi rfl
    | deviceChange a v => simp only [hi] at h; cases h; exact .deviceChange a v rest hi rfl
    | command w =>
      cases hr : s.ready with
      | false => simp [hi, hr] at h; exact .goesOn h.symm
      | true =>
        cases hw : decode w with
        | error e => simp [hi, hr, hw] at h
        | ok i => simp only [hi, hr, hw, if_true] at h; exact .command w i rest hi hr hw h
    | pseudo p =>
      cases hr : s.ready with
      | false => simp [hi, hr] at h; exact .goesOn h.symm
      | true => simp only [hi, hr, if_true] at h; exact .pseudo p rest (.inl hi) hr h
    | mutateDevaddr a =>
      cases hr : s.ready with
      | false => simp [hi, hr] at h
      | true => simp only [hi, hr, if_true] at h; exact .pseudo (.setAddr a) rest (.inr ⟨a, rfl, hi⟩) hr h

end Sys2Proof.Machine
end

section
/-! PROOFS. What a step can do to DEVADDR and to the event history: O53, O56, O57. -/

namespace Sys2Proof.Machine

/-- From `s` to `t` DEVADDR is kept and at most `n` calls enter the event history (20_memory.md R50). -/
def Enters (n : Nat) (s t : State) : Prop :=
  t.devaddr = s.devaddr ∧ ∃ evs, t.history = s.history ++ evs ∧ evs.length ≤ n

theorem Enters.of_eq {n : Nat} {s t : State} (hd : t.devaddr = s.devaddr) (hh : t.history = s.history) :
    Enters n s t :=
  ⟨hd, [], by simp [hh], n.zero_le⟩

theorem Enters.refl {n : Nat} (s : State) : Enters n s s := .of_eq rfl rfl

theorem Enters.trans {m n : Nat} {s t u : State} (h : Enters m s t) (g : Enters n t u) : Enters (m + n) s u := by
  obtain ⟨hd, evs, hh, hm⟩ := h
  obtain ⟨gd, evs', gh, gn⟩ := g
  exact ⟨gd.trans hd, evs ++ evs', by simp [gh, hh], by simp; omega⟩

theorem Enters.mono {m n : Nat} {s t : State} (h : Enters m s t) (hmn : m ≤ n) : Enters n s t := by
  obtain ⟨hd, evs, hh, hm⟩ := h
  exact ⟨hd, evs, hh, hm.trans hmn⟩

/-! ### The transport and the engine -/

theorem respond_enters {s t : State} {a : Answer} (h : s.respond = some (a, t)) : Enters 1 s t := by
  obtain ⟨c, -, -, as, fs, m, rfl, -⟩ := State.respond_spec h
  exact ⟨rfl, [{ req := c.req, outcome := a }], rfl, le_rfl⟩

theorem complete_enters {n : Nat} (r : Result) (s : State) : Enters n s (s.complete r) := .of_eq (by simp) (by simp)

theorem readAnswered_enters (a : Answer) (s : State) : Enters 0 s (readAnswered a s) := by
  cases a with
  | fail => exact complete_enters _ s
  | ok r =>
    by_cases h : cenc (s.ovr.merge (cdec r)) = cenc (cdec r)
    · rw [readAnswered_unchanged h]; exact .of_eq (by simp) (by simp)
    · rw [readAnswered_changed h]; exact .of_eq rfl rfl

theorem writeAnswered_enters (a : Answer) (s : State) : Enters 0 s (writeAnswered a s) := by
  rw [writeAnswered_eq_complete]; exact complete_enters _ s

/-- One transition of the engine takes at most the one answer outstanding. -/
theorem engine_enters (s : State) : Enters 1 s (engine s) := by
  cases hr : s.respond with
  | none => rw [engine_waits hr]; exact .refl s
  | some y =>
    obtain ⟨a, t⟩ := y
    cases hp : s.phase with
    | idle => rw [engine_idle hp]; exact .refl s
    | rdWait => rw [engine_read hp hr]; exact (respond_enters hr).trans (readAnswered_enters a t)
    | wrWait => rw [engine_write hp hr]; exact (respond_enters hr).trans (writeAnswered_enters a t)

theorem runEngine_enters (s : State) : Enters 2 s (runEngine s) := (engine_enters s).trans (engine_enters _)

theorem cmrgAccept_enters (d : DevAddr) (o : Overrides) (s : State) : Enters 0 s (cmrgAccept d o s) := by
  by_cases h0 : o.count = 0
  · rw [cmrgAccept_none h0]; exact .of_eq (by simp) (by simp)
  · by_cases h6 : o.count = 6
    · rw [cmrgAccept_all h6]; exact .of_eq rfl rfl
    · rw [cmrgAccept_partial h0 h6]; exact .of_eq rfl rfl

/-! ### The Facade -/

theorem facadeFinish_enters (p : Pseudo) (a : Answer) (s : State) : Enters 0 s (facadeFinish p a s) := by
  unfold facadeFinish
  split <;> exact .of_eq (by simp) (by simp)

theorem facadeRun_enters (s : State) : Enters 1 s (facadeRun s) := by
  cases hr : s.respond with
  | none => rw [facadeRun_waits hr]; exact .refl s
  | some y =>
    obtain ⟨a, t⟩ := y
    cases hf : s.facade with
    | none => rw [facadeRun_idle hf]; exact .refl s
    | some p =>
      rw [facadeRun_answered hf hr]
      have h : Enters 1 s t := respond_enters hr
      exact Enters.trans (t := { t with facade := none }) h (facadeFinish_enters p a _)

theorem facadeCall_enters (p : Pseudo) (q : Request) (s : State) : Enters 1 s (facadeCall p q s) :=
  facadeRun_enters (State.issue q { s with facade := some p, facadeResult := none })

/-- SETHI and SETLO run TENC before their call (43_facade_boundary.md R131). -/
theorem facadeCall_after_complete_enters (r : Result) (p : Pseudo) (q : Request) (s : State) :
    Enters 1 s (facadeCall p q (s.complete r)) := by
  simpa using (complete_enters (n := 0) r s).trans (facadeCall_enters p q (s.complete r))

theorem runEngine_cmrgAccept_enters (d : DevAddr) (o : Overrides) (s : State) :
    Enters 2 s (runEngine (cmrgAccept d o s)) := by
  simpa using (cmrgAccept_enters d o s).trans (runEngine_enters _)

theorem goOn_enters (s : State) : Enters 2 s (goOn s) := by
  unfold goOn
  split
  · exact (facadeRun_enters s).mono (by omega)
  · exact runEngine_enters s

theorem await_enters (s : State) : Enters 2 s (await s) := by
  have h : Enters 0 s s.tick.countdown := .of_eq (by simp) (by simp)
  exact (h.trans (goOn_enters _)).mono (by omega)

/-! ### The operations and the step -/

/-- An operation that waits enters nothing. -/
theorem whenReady_enters {n : Nat} {s go t : State} (h : s.whenReady go = .next t) (hg : Enters n s go) :
    Enters n s t := by
  unfold State.whenReady at h
  split at h
  · cases h; exact hg
  · cases h; exact .refl s

theorem exec_enters {i : Instr} {s t : State} (h : exec i s = .next t) : Enters 2 s t := by
  cases i with
  | cmrg d o => exact whenReady_enters h (runEngine_cmrgAccept_enters d o s)
  | tdec r => exact whenReady_enters h (complete_enters _ s)
  | tenc f => exact whenReady_enters h (complete_enters _ s)
  | cdec r => exact whenReady_enters h (complete_enters _ s)
  | cenc c => exact whenReady_enters h (complete_enters _ s)
  | ceq a b => exact whenReady_enters h (complete_enters _ s)

/-- A SETADDR taken up in `s` gives `t` (43_facade_boundary.md R132). -/
def Readdresses (s t : State) : Prop :=
  s.ready = true ∧ t.devaddr ∈ Config.devAddrSet ∧ t.history = s.history

theorem execPseudo_setAddr {a : DevAddr} {s t : State} (h : execPseudo (.setAddr a) s = .next t) :
    t = s ∨ t.devaddr = a ∧ Readdresses s t := by
  unfold execPseudo setAddr at h
  dsimp only at h
  split at h
  next hr =>
    split at h
    next ha => cases h; exact .inr ⟨rfl, hr, by simpa [WellFormed.pseudo] using ha, rfl⟩
    next => cases h
  next => cases h; exact .inl rfl

/-- A Facade operation keeps DEVADDR unless it is SETADDR, and enters at most two calls. -/
theorem execPseudo_enters {p : Pseudo} {s t : State} (h : execPseudo p s = .next t) :
    Enters 2 s t ∨ p = .setAddr t.devaddr ∧ Readdresses s t := by
  cases p with
  | setAddr a =>
    obtain rfl | ⟨rfl, hr⟩ := execPseudo_setAddr h
    · exact .inl (.refl _)
    · exact .inr ⟨rfl, hr⟩
  | setCfg o =>
    exact .inl (whenReady_enters h (runEngine_cmrgAccept_enters s.devaddr o
      { s with facade := some (.setCfg o), facadeResult := none }))
  | getTemp => exact .inl ((whenReady_enters h (facadeCall_enters _ _ s)).mono (by omega))
  | getId => exact .inl ((whenReady_enters h (facadeCall_enters _ _ s)).mono (by omega))
  | getCfgRaw => exact .inl ((whenReady_enters h (facadeCall_enters _ _ s)).mono (by omega))
  | getCfg => exact .inl ((whenReady_enters h (facadeCall_enters _ _ s)).mono (by omega))
  | setHi x => exact .inl ((whenReady_enters h (facadeCall_after_complete_enters _ _ _ s)).mono (by omega))
  | setLo x => exact .inl ((whenReady_enters h (facadeCall_after_complete_enters _ _ _ s)).mono (by omega))

/-- What a step can do to DEVADDR and the history: it enters at most two calls, it is a SETADDR taken up (presented as
such or as the owner's change), or it is a reset. -/
inductive StepEffect (s t : State) : Prop
  | enters (h : Enters 2 s t)
  | readdress (rest : List Input)
      (hi : s.inputs = .pseudo (.setAddr t.devaddr) :: rest ∨ s.inputs = .mutateDevaddr t.devaddr :: rest)
      (h : Readdresses s t)
  | reset (rest : List Input) (hi : s.inputs = .reset :: rest) (hd : t.devaddr = s.devaddr) (hh : t.history = [])

theorem step_effect {s t : State} (h : step s = .next t) : StepEffect s t := by
  cases step_takes h with
  | goesOn ht => subst ht; exact .enters (await_enters s)
  | quiet rest _ ht => subst ht; exact .enters (await_enters { s with inputs := rest })
  | deviceChange a v rest _ ht =>
    subst ht; exact .enters (await_enters (State.changeDevice a v { s with inputs := rest }))
  | reset rest hi ht => subst ht; exact .reset rest hi rfl rfl
  | command w i rest _ _ _ ht => exact .enters (exec_enters (s := { s with inputs := rest }) ht)
  | pseudo p rest hi _ ht =>
    obtain he | ⟨rfl, hr⟩ := execPseudo_enters ht
    · exact .enters he
    · refine .readdress rest ?_ hr
      obtain hi | ⟨a, ha, hi⟩ := hi
      · exact .inl hi
      · cases ha; exact .inr hi

/-! ### O53, O56, O57 -/

/-- Settles O53: the fields of the reset state, and the first member of DEVADDR_SET. -/
theorem resetIsIdleAndMeetsInvariant : Obligations.ResetIsIdleAndMeetsInvariant :=
  ⟨⟨rfl, by simp [State.reset, Config.devAddrSet], by simp [State.reset], rfl⟩, rfl, rfl, rfl, rfl, rfl⟩

/-- Settles O56: of the three effects of a step only the SETADDR gives DEVADDR another value. -/
theorem onlySetAddrChangesDevaddr : Obligations.OnlySetAddrChangesDevaddr := by
  intro s t h hne
  cases step_effect h with
  | enters he => exact absurd he.1 hne
  | reset _ _ hd _ => exact absurd hd hne
  | readdress rest hi hr =>
    obtain ⟨hready, hmem, -⟩ := hr
    obtain ⟨hp, hf⟩ := (State.ready_iff s).1 hready
    exact ⟨rest, hi, hp, hf, hmem⟩

/-- Settles O57: of the three effects of a step only the reset does not extend the history. -/
theorem historyOnlyGrows : Obligations.HistoryOnlyGrows := by
  intro s t h
  cases step_effect h with
  | enters he => exact .inl he.2
  | reset rest hi _ hh => exact .inr ⟨hh, rest, hi⟩
  | readdress _ _ hr =>
    obtain ⟨-, -, hh⟩ := hr
    exact .inl ⟨[], by simp [hh], by simp⟩

end Sys2Proof.Machine
end

section
/-! PROOFS. The merge engine, whatever the delays, computes R112's function of the transport's answers: O39. -/

namespace Sys2Proof.Machine

/-- What R112's function gives and from which answers (42_merge_engine.md R106 to R111). -/
inductive CmrgFunctionCase (d : DevAddr) (o : Overrides) : List Answer → Result → List Event → Prop
  | noOp (as : List Answer) (h : o.count = 0) : CmrgFunctionCase d o as .noOpRequested []
  | fastPath (a : Answer) (as : List Answer) (h : o.count = 6) : CmrgFunctionCase d o (a :: as) (writeResult a)
      [{ req := .wr d addrCfg (cenc (o.merge blankConfiguration)), outcome := a }]
  | readFails (as : List Answer) (h0 : o.count ≠ 0) (h6 : o.count ≠ 6) :
      CmrgFunctionCase d o (.fail :: as) .transportFailure [{ req := .rd d addrCfg, outcome := .fail }]
  | shortCircuit (v : Register) (as : List Answer) (h0 : o.count ≠ 0) (h6 : o.count ≠ 6)
      (he : cenc (o.merge (cdec v)) = cenc (cdec v)) :
      CmrgFunctionCase d o (.ok v :: as) (.reg (cenc (o.merge (cdec v)))) [{ req := .rd d addrCfg, outcome := .ok v }]
  | update (v : Register) (a : Answer) (as : List Answer) (h0 : o.count ≠ 0) (h6 : o.count ≠ 6)
      (he : cenc (o.merge (cdec v)) ≠ cenc (cdec v)) :
      CmrgFunctionCase d o (.ok v :: a :: as) (writeResult a)
        [{ req := .rd d addrCfg, outcome := .ok v },
         { req := .wr d addrCfg (cenc (o.merge (cdec v))), outcome := a }]

theorem cmrgFunction_cases {d : DevAddr} {o : Overrides} {as : List Answer} {r : Result} {evs : List Event}
    (h : cmrgFunction d o as = some (r, evs)) : CmrgFunctionCase d o as r evs := by
  unfold cmrgFunction at h
  dsimp only at h
  split at h
  next h0 => cases h; exact .noOp as h0
  next h0 =>
    split at h
    next h6 =>
      split at h
      next => cases h
      next => cases h; exact .fastPath .fail _ h6
      next => cases h; exact .fastPath (.ok _) _ h6
    next h6 =>
      split at h
      next => cases h
      next => cases h; exact .readFails _ h0 h6
      next v rest =>
        split at h
        next he => cases h; exact .shortCircuit v rest h0 h6 he
        next he =>
          split at h
          next => cases h
          next => cases h; exact .update v .fail _ h0 h6 he
          next => cases h; exact .update v (.ok _) _ h0 h6 he

/-! ### A CMRG in flight, and how it ends -/

/-- A CMRG of the requester, accepted in `s` on the external transport with nothing else presented: `evs` are its events
so far, `as` the answers still to come. -/
structure Flying (s : State) (evs : List Event) (as : List Answer) (x : State) : Prop where
  inputs : x.inputs = []
  facade : x.facade = none
  binding : x.binding = .external
  answers : x.answers = as
  history : x.history = s.history ++ evs
  store : x.store = s.store
  devaddr : x.devaddr = s.devaddr

/-- The block is idle again after an operation accepted in `s` that gave `r` and the events `evs`. -/
structure Ended (s : State) (r : Result) (evs : List Event) (t : State) : Prop where
  phase : t.phase = .idle
  facade : t.facade = none
  call : t.call = none
  result : t.result = some r
  history : t.history = s.history ++ evs
  store : t.store = s.store
  devaddr : t.devaddr = s.devaddr

/-- From `x`, the engine run as far as it goes and then some number of steps end the operation. -/
def Ends (s : State) (r : Result) (evs : List Event) (x : State) : Prop :=
  ∃ n t, Sys2Proof.core.run n (runEngine x) = .next t ∧ Ended s r evs t

section
variable {s x : State} {evs : List Event} {as : List Answer}

theorem Flying.complete (F : Flying s evs as x) (hc : x.call = none) (r : Result) : Ended s r evs (x.complete r) := by
  rw [State.complete_of_no_facade r x F.facade]
  exact ⟨rfl, F.facade, hc, rfl, F.history, F.store, F.devaddr⟩

/-- The engine's registers and the result play no part in it. -/
theorem Flying.withRegisters (F : Flying s evs as x) {p : Phase} {o : Overrides} {cu ca : Register} {la : DevAddr}
    {re : Option Result} :
    Flying s evs as { x with phase := p, ovr := o, cur := cu, cand := ca, latched := la, result := re } :=
  ⟨F.inputs, F.facade, F.binding, F.answers, F.history, F.store, F.devaddr⟩

theorem Flying.issue (F : Flying s evs as x) (q : Request) : Flying s evs as (x.issue q) :=
  ⟨F.inputs, F.facade, F.binding, F.answers, F.history, F.store, F.devaddr⟩

/-- The transport's next answer. -/
theorem Flying.answered {a : Answer} (F : Flying s evs (a :: as) x) (q : Request) :
    Flying s (evs ++ [{ req := q, outcome := a }]) as
      { x with answers := as, call := none, history := x.history ++ [{ req := q, outcome := a }] } :=
  ⟨F.inputs, F.facade, F.binding, rfl, by simp [F.history], F.store, F.devaddr⟩

theorem ends_of_ended {r : Result} (h : Ended s r evs (runEngine x)) : Ends s r evs x := ⟨0, _, run_zero _, h⟩

theorem Flying.ends_complete (F : Flying s evs as x) (hc : x.call = none) (r : Result) :
    Ends s r evs (x.complete r) := by
  refine ends_of_ended ?_
  rw [runEngine, engine_idle (State.complete_phase r x), engine_idle (State.complete_phase r x)]
  exact F.complete hc r

/-- The delay of a call does not matter: the engine ends as it would with the call's time passed (42_merge_engine.md
R117). -/
theorem Flying.ends_of_delay {r : Result} {evs' : List Event} {q : Request} {n : Nat} (F : Flying s evs as x)
    (hp : x.phase ≠ .idle) (hc : x.call = some { req := q, left := n })
    (h : ∀ y, Flying s evs as y → y.phase = x.phase → y.ovr = x.ovr → y.latched = x.latched →
      y.call = some { req := q, left := 0 } → Ends s r evs' y) : Ends s r evs' x := by
  induction n generalizing x with
  | zero => exact h x F rfl rfl rfl hc
  | succ n ih =>
    have hw : runEngine x = x := by simp [runEngine, engine_waits (State.respond_waiting hc)]
    have F' : Flying s evs as { x with call := some { req := q, left := n }, epoch := x.epoch + 1 } :=
      ⟨F.inputs, F.facade, F.binding, F.answers, F.history, F.store, F.devaddr⟩
    obtain ⟨m, t, hm, ht⟩ := ih F' hp rfl h
    refine ⟨m + 1, t, ?_, ht⟩
    rw [hw, run_succ m (step_in_flight F.inputs hp), State.countdown_call hc]
    exact hm

/-- A CMRG in WR_WAIT ends with the write's answer (42_merge_engine.md R107, R111). -/
theorem Flying.ends_write {a : Answer} {q : Request} {n : Nat} (F : Flying s evs (a :: as) x) (hp : x.phase = .wrWait)
    (hc : x.call = some { req := q, left := n }) :
    Ends s (writeResult a) (evs ++ [{ req := q, outcome := a }]) x := by
  refine F.ends_of_delay (by simp [hp]) hc fun y Fy hy _ _ hq => ends_of_ended ?_
  have hw : y.phase = .wrWait := hy.trans hp
  rw [runEngine_write hw, engine_write hw (State.respond_external hq Fy.binding Fy.answers), writeAnswered_eq_complete]
  exact (Fy.answered q).complete rfl _

/-- A CMRG in RD_WAIT ends as the engine does once the read has answered. -/
theorem Flying.ends_read {a : Answer} {q : Request} {n : Nat} {r : Result} {evs' : List Event}
    (F : Flying s evs (a :: as) x) (hp : x.phase = .rdWait) (hc : x.call = some { req := q, left := n })
    (h : ∀ y, Flying s (evs ++ [{ req := q, outcome := a }]) as y → y.call = none → y.ovr = x.ovr →
      y.latched = x.latched → Ends s r evs' (readAnswered a y)) : Ends s r evs' x := by
  refine F.ends_of_delay (by simp [hp]) hc fun y Fy hy ho hl hq => ?_
  have he := runEngine_read (hy.trans hp) (State.respond_external hq Fy.binding Fy.answers)
  obtain ⟨m, t, hm, ht⟩ := h _ (Fy.answered q) rfl ho hl
  exact ⟨m, t, by rw [he]; exact hm, ht⟩

/-- The engine from the acceptance of a CMRG ends as R112's function of the answers says. -/
theorem Flying.ends_cmrgAccept {d : DevAddr} {o : Overrides} {r : Result} {evs' : List Event} (F : Flying s [] as x)
    (hc : x.call = none) (h : CmrgFunctionCase d o as r evs') : Ends s r evs' (cmrgAccept d o x) := by
  cases h with
  | noOp _ h0 =>
    rw [cmrgAccept_none h0]
    exact Flying.ends_complete F.withRegisters (by exact hc) _
  | fastPath a as h6 =>
    rw [cmrgAccept_all h6]
    exact Flying.ends_write (evs := []) (F.withRegisters.issue _) rfl rfl
  | readFails as h0 h6 =>
    rw [cmrgAccept_partial h0 h6]
    refine Flying.ends_read (evs := []) (F.withRegisters.issue _) rfl rfl fun y Fy hy _ _ => ?_
    exact Fy.ends_complete hy _
  | shortCircuit v as h0 h6 he =>
    rw [cmrgAccept_partial h0 h6]
    refine Flying.ends_read (evs := []) (F.withRegisters.issue _) rfl rfl fun y Fy hy (ho : y.ovr = o) _ => ?_
    subst ho
    rw [readAnswered_unchanged he]
    exact Flying.ends_complete Fy.withRegisters (by exact hy) _
  | update v a as h0 h6 he =>
    rw [cmrgAccept_partial h0 h6]
    refine Flying.ends_read (evs := []) (F.withRegisters.issue _) rfl rfl
      fun y Fy hy (ho : y.ovr = o) (hl : y.latched = d) => ?_
    subst ho hl
    rw [readAnswered_changed he]
    exact Flying.ends_write (evs := [_]) (Fy.withRegisters.issue _) rfl rfl

end

/-- Settles O39: from acceptance the engine ends, call by call and whatever the delays, as the function's case says. -/
theorem mergeEngineRefinesFunction : Obligations.MergeEngineRefinesFunction := by
  intro d o s r evs hinv hp hf hb hi h
  have hc : s.call = none := by simpa [Safety.PortCoherent, hp, hf] using hinv.port_coherent
  have F : Flying s [] s.answers { s with inputs := [] } := ⟨rfl, hf, hb, rfl, by simp, rfl, rfl⟩
  obtain ⟨n, t, hn, E⟩ := F.ends_cmrgAccept hc (cmrgFunction_cases h)
  refine ⟨n + 1, t, ?_, E.phase, E.facade, E.call, E.result, E.history, E.store, E.devaddr⟩
  rw [run_succ n (step_cmrg_ready hp hf hi), hn]

end Sys2Proof.Machine
end

section
/-! PROOFS. Nothing an earlier operation left influences an operation: O40. -/

namespace Sys2Proof.Machine

/-- `s'` is `s` except in what no operation reads again (10_state.md R20): CUR, CAND, the Facade's last result and the
model's counter; and the histories of the two extend `h` and `h'` by the same events. -/
def Alike (h h' : List Event) (s s' : State) : Prop :=
  ∃ cu ca fr ep evs, s.history = h ++ evs ∧
    s' = { s with cur := cu, cand := ca, facadeResult := fr, epoch := ep, history := h' ++ evs }

section
variable {h h' : List Event} {s s' : State}

theorem Alike.phase_eq (H : Alike h h' s s') : s'.phase = s.phase := by
  obtain ⟨_, _, _, _, _, _, rfl⟩ := H; rfl

theorem Alike.withPhase (H : Alike h h' s s') (p : Phase) :
    Alike h h' { s with phase := p } { s' with phase := p } := by
  obtain ⟨cu, ca, fr, ep, evs, hs, rfl⟩ := H
  exact ⟨cu, ca, fr, ep, evs, hs, rfl⟩

theorem Alike.withCand (H : Alike h h' s s') (w : Register) :
    Alike h h' { s with cand := w } { s' with cand := w } := by
  obtain ⟨cu, ca, fr, ep, evs, hs, rfl⟩ := H
  exact ⟨cu, w, fr, ep, evs, hs, rfl⟩

theorem Alike.complete (H : Alike h h' s s') (r : Result) : Alike h h' (s.complete r) (s'.complete r) := by
  obtain ⟨cu, ca, fr, ep, evs, hs, rfl⟩ := H
  unfold State.complete
  dsimp only
  split <;> exact ⟨cu, ca, _, _, evs, hs, rfl⟩

theorem Alike.issue (H : Alike h h' s s') (q : Request) : Alike h h' (s.issue q) (s'.issue q) := by
  obtain ⟨cu, ca, fr, ep, evs, hs, rfl⟩ := H
  exact ⟨cu, ca, fr, ep, evs, hs, rfl⟩

theorem Alike.answered (H : Alike h h' s s') (q : Request) (a : Answer) :
    Alike h h' (s.answered q a) (s'.answered q a) := by
  obtain ⟨cu, ca, fr, ep, evs, hs, rfl⟩ := H
  exact ⟨cu, ca, fr, ep, evs ++ [{ req := q, outcome := a }], by simp [hs], by simp [State.answered]⟩

theorem Alike.serve (H : Alike h h' s s') (q : Request) :
    Option.Rel (fun x y => x.1 = y.1 ∧ Alike h h' x.2 y.2) (s.serve q) (s'.serve q) := by
  obtain ⟨cu, ca, fr, ep, evs, hs, rfl⟩ := H
  unfold State.serve
  dsimp only
  split
  · split
    · exact .none
    · refine .some ⟨rfl, Alike.answered ?_ q _⟩; exact ⟨cu, ca, fr, ep, evs, hs, rfl⟩
  · split
    · refine .some ⟨rfl, Alike.answered ?_ q _⟩; exact ⟨cu, ca, fr, ep, evs, hs, rfl⟩
    · refine .some ⟨rfl, Alike.answered ?_ q _⟩; exact ⟨cu, ca, fr, ep, evs, hs, rfl⟩

/-- The transport gives both the same answer. -/
theorem Alike.respond (H : Alike h h' s s') :
    Option.Rel (fun x y => x.1 = y.1 ∧ Alike h h' x.2 y.2) s.respond s'.respond := by
  have hc : s'.call = s.call := by obtain ⟨_, _, _, _, _, _, rfl⟩ := H; rfl
  unfold State.respond
  rw [hc]
  split
  · exact .none
  · split
    · exact H.serve _
    · exact .none

/-- The merge starts from the register that was read and not from the one CUR held before (42_merge_engine.md R109). -/
theorem Alike.readAnswered (H : Alike h h' s s') (a : Answer) :
    Alike h h' (readAnswered a s) (readAnswered a s') := by
  cases a with
  | fail => exact H.complete _
  | ok r =>
    obtain ⟨cu, ca, fr, ep, evs, hs, rfl⟩ := H
    unfold Machine.readAnswered
    dsimp only
    split
    · refine Alike.complete ?_ _; exact ⟨_, _, fr, ep, evs, hs, rfl⟩
    · refine Alike.issue ?_ _; exact ⟨_, _, fr, ep, evs, hs, rfl⟩

theorem Alike.writeAnswered (H : Alike h h' s s') (a : Answer) :
    Alike h h' (writeAnswered a s) (writeAnswered a s') := by
  rw [writeAnswered_eq_complete, writeAnswered_eq_complete]; exact H.complete _

theorem Alike.engine (H : Alike h h' s s') : Alike h h' (engine s) (engine s') := by
  have hr := H.respond
  unfold Machine.engine
  rw [H.phase_eq]
  generalize s.respond = x, s'.respond = y at hr ⊢
  cases s.phase with
  | idle => exact H
  | rdWait =>
    cases hr with
    | none => exact H
    | some hx => obtain ⟨ha, H'⟩ := hx; dsimp only; rw [ha]; exact H'.readAnswered _
  | wrWait =>
    cases hr with
    | none => exact H
    | some hx => obtain ⟨ha, H'⟩ := hx; dsimp only; rw [ha]; exact H'.writeAnswered _

theorem Alike.runEngine (H : Alike h h' s s') : Alike h h' (runEngine s) (runEngine s') := H.engine.engine

/-- Acceptance latches the operands and clears the result, so these too may differ before it. -/
theorem Alike.cmrgAccept {d : DevAddr} {o : Overrides}
    (H : Alike h h' { s with ovr := o, latched := d, result := none }
      { s' with ovr := o, latched := d, result := none }) :
    Alike h h' (cmrgAccept d o s) (cmrgAccept d o s') := by
  unfold Machine.cmrgAccept
  dsimp only
  split
  · exact H.complete _
  · split
    · exact ((H.withCand _).withPhase .wrWait).issue _
    · exact (H.withPhase .rdWait).issue _

end

/-- Settles O40: a codec operation's result is of its operands alone, and the engine keeps the two states alike from the
acceptance of a CMRG on. -/
theorem operationsKeepNothing : Obligations.OperationsKeepNothing := by
  intro i s ov cu ca la re fr hi ep hp hf
  by_cases h : ∃ d o, i = .cmrg d o
  · obtain ⟨d, o, rfl⟩ := h
    have H : Alike s.history hi (cmrgAccept d o s) (cmrgAccept d o { s with
        ovr := ov, cur := cu, cand := ca, latched := la, result := re, facadeResult := fr, history := hi,
        epoch := ep }) :=
      Alike.cmrgAccept ⟨cu, ca, fr, ep, [], by simp, by simp⟩
    obtain ⟨_, _, _, _, evs, hs, ht⟩ := H.runEngine
    exact ⟨_, _, evs, exec_cmrg_ready hp hf, (exec_cmrg_ready (by exact hp) (by exact hf)).trans (congrArg _ ht),
      rfl, rfl, rfl, rfl, rfl, rfl, rfl, hs, rfl⟩
  · obtain ⟨r, hr⟩ := exec_codec (i := i) (fun d o e => h ⟨d, o, e⟩)
    exact ⟨_, _, [], hr s hp hf, hr _ hp hf, rfl, rfl, rfl, rfl, rfl, rfl, rfl, by simp, by simp⟩

end Sys2Proof.Machine
end

section
/-! PROOFS. The register image of a record: what it decodes to, when two are equal, and what the merge makes of it. -/

namespace Sys2Proof.Machine

/-! ### The fields of an image (41_configuration_codec.md R93 to R95) -/

@[simp] theorem cenc_mode (c : Configuration) : (cenc c).extractLsb' 10 2 = c.mode.bits := by
  simp [cenc, BitVec.extractLsb'_or]

@[simp] theorem cenc_conv (c : Configuration) : (cenc c).extractLsb' 7 3 = c.conv.bits := by
  simp [cenc, BitVec.extractLsb'_or]

@[simp] theorem cenc_avg (c : Configuration) : (cenc c).extractLsb' 5 2 = c.avg.bits := by
  simp [cenc, BitVec.extractLsb'_or]

@[simp] theorem cenc_therm (c : Configuration) : (cenc c).extractLsb' 4 1 = c.therm.bits := by
  simp [cenc, BitVec.extractLsb'_or]

@[simp] theorem cenc_pol (c : Configuration) : (cenc c).extractLsb' 3 1 = c.pol.bits := by
  simp [cenc, BitVec.extractLsb'_or]

@[simp] theorem cenc_dr (c : Configuration) : (cenc c).extractLsb' 2 1 = c.dr.bits := by
  simp [cenc, BitVec.extractLsb'_or]

/-- The flag and reserved positions of an image are zero. -/
theorem cenc_and_fixed (c : Configuration) : cenc c &&& 0xF003#16 = 0#16 := by
  apply BitVec.eq_of_getLsbD_eq
  intro i hi
  simp only [cenc, BitVec.getLsbD_and, BitVec.getLsbD_or, getLsbD_field]
  interval_cases i <;> simp

theorem cenc_canonical (c : Configuration) : Safety.canonicalCfg (cenc c) = true := by
  simp [Safety.canonicalCfg, cenc_and_fixed, Mode.bits_ne_alias]

/-! ### Equal writable fields (41_configuration_codec.md R96) -/

theorem ceq_iff {a b : Configuration} : ceq a b = true ↔
    a.mode = b.mode ∧ a.conv = b.conv ∧ a.avg = b.avg ∧ a.therm = b.therm ∧ a.pol = b.pol ∧ a.dr = b.dr := by
  simp [ceq, and_assoc]

theorem ceq_refl (a : Configuration) : ceq a a = true := by simp [ceq_iff]

theorem ceq_symm {a b : Configuration} (h : ceq a b = true) : ceq b a = true := by
  obtain ⟨hm, hc, ha, ht, hp, hd⟩ := ceq_iff.1 h
  exact ceq_iff.2 ⟨hm.symm, hc.symm, ha.symm, ht.symm, hp.symm, hd.symm⟩

theorem ceq_trans {a b c : Configuration} (h : ceq a b = true) (g : ceq b c = true) : ceq a c = true := by
  obtain ⟨hm, hc, ha, ht, hp, hd⟩ := ceq_iff.1 h
  obtain ⟨gm, gc, ga, gt, gp, gd⟩ := ceq_iff.1 g
  exact ceq_iff.2 ⟨hm.trans gm, hc.trans gc, ha.trans ga, ht.trans gt, hp.trans gp, hd.trans gd⟩

/-! ### Decoding an image -/

/-- The working copy is the register where the mode field is not the alias (41_configuration_codec.md R91). -/
theorem foldAlias_of_ne {r : Register} (h : r.extractLsb' 10 2 ≠ 0b10#2) : foldAlias r = r := by
  have hm : r &&& maskMode ≠ modeAlias := by
    intro e
    refine h ?_
    have he : (r &&& maskMode).extractLsb' 10 2 = 0b10#2 := by rw [e]; decide
    have hmask : maskMode.extractLsb' 10 2 = BitVec.allOnes 2 := by decide
    rwa [BitVec.extractLsb'_and, hmask, BitVec.and_allOnes] at he
  rw [foldAlias, if_neg hm]

theorem modeOf_bits (m : Mode) : modeOf m.bits = m := by cases m <;> rfl

/-- An image decodes to the record's writable fields (41_configuration_codec.md R97). -/
theorem ceq_cdec_cenc (c : Configuration) : ceq (cdec (cenc c)) c = true := by
  have hf : foldAlias (cenc c) = cenc c := foldAlias_of_ne (by simp [Mode.bits_ne_alias])
  simp [ceq_iff, cdec, hf, modeOf_bits]

/-- The flags do not enter an image, the six fields fix it, and they are read back from it (41_configuration_codec.md
R98). -/
theorem cenc_eq_iff {a b : Configuration} : cenc a = cenc b ↔ ceq a b = true := by
  constructor
  · intro h
    have hb : ceq (cdec (cenc a)) b = true := h ▸ ceq_cdec_cenc b
    exact ceq_trans (ceq_symm (ceq_cdec_cenc a)) hb
  · intro h
    obtain ⟨hm, hc, ha, ht, hp, hd⟩ := ceq_iff.1 h
    rw [cenc, cenc, hm, hc, ha, ht, hp, hd]

/-! ### The merge -/

/-- The merge looks at the writable fields alone (42_merge_engine.md R116). -/
theorem ceq_merge {a b : Configuration} (o : Overrides) (h : ceq a b = true) : ceq (o.merge a) (o.merge b) = true := by
  obtain ⟨hm, hc, ha, ht, hp, hd⟩ := ceq_iff.1 h
  simp [ceq_iff, Overrides.merge, hm, hc, ha, ht, hp, hd]

/-- Six overrides are an override of every field (42_merge_engine.md R105). -/
theorem isSome_of_count_six {o : Overrides} (h : o.count = 6) :
    o.mode.isSome ∧ o.conv.isSome ∧ o.avg.isSome ∧ o.therm.isSome ∧ o.pol.isSome ∧ o.dr.isSome := by
  have h1 := o.mode.isSome.toNat_le; have h2 := o.conv.isSome.toNat_le; have h3 := o.avg.isSome.toNat_le
  have h4 := o.therm.isSome.toNat_le; have h5 := o.pol.isSome.toNat_le; have h6 := o.dr.isSome.toNat_le
  unfold Overrides.count at h
  simp only [← Bool.toNat_eq_one]
  omega

theorem getD_of_isSome {α : Type} {x : Option α} (h : x.isSome) (a b : α) : x.getD a = x.getD b := by
  cases x with
  | none => cases h
  | some _ => rfl

/-- A complete set of overrides leaves nothing of the configuration it is merged with (42_merge_engine.md R107). -/
theorem ceq_merge_of_count_six {o : Overrides} (h : o.count = 6) (a b : Configuration) :
    ceq (o.merge a) (o.merge b) = true := by
  obtain ⟨hm, hc, ha, ht, hp, hd⟩ := isSome_of_count_six h
  exact ceq_iff.2 ⟨getD_of_isSome hm _ _, getD_of_isSome hc _ _, getD_of_isSome ha _ _, getD_of_isSome ht _ _,
    getD_of_isSome hp _ _, getD_of_isSome hd _ _⟩

/-! ### The CMRG's result -/

/-- Settles O36: a register result is the image of a candidate, of the short-circuit or as the echo of the write. -/
theorem cmrgResultIsCandidateUnderEcho : Obligations.CmrgResultIsCandidateUnderEcho := by
  intro d o s t v hp hf h hr hecho
  obtain ⟨t', evs, ht, hh, hout⟩ := cmrg_outcome d o hp hf
  rw [h] at ht
  cases ht
  suffices hv : ∃ c, v = cenc c ∧ ((o.count = 6 ∧ c = o.merge blankConfiguration) ∨
      ∃ r, (⟨.rd d 0x01#8, .ok r⟩ : Event) ∈ evs ∧ c = o.merge (cdec r)) by
    obtain ⟨c, rfl, hc⟩ := hv
    refine ⟨cenc_canonical c, evs, hh, ?_⟩
    obtain ⟨h6, rfl⟩ | ⟨r, hmem, rfl⟩ := hc
    · exact .inl ⟨h6, ceq_cdec_cenc _⟩
    · exact .inr ⟨r, hmem, ceq_cdec_cenc _⟩
  have echo {w : Register} {a : Answer} (hw : t.result = some (writeResult a))
      (hmem : (⟨.wr d addrCfg w, a⟩ : Event) ∈ evs) : v = w := by
    rw [hr] at hw
    cases a with
    | fail => cases hw
    | ok e => cases hw; exact hecho _ _ _ _ (by rw [hh]; exact List.mem_append_right _ hmem)
  cases hout with
  | noOp _ h2 => cases hr.symm.trans h2
  | writeWaits _ _ h2 => cases hr.symm.trans h2
  | readWaits _ _ _ h2 => cases hr.symm.trans h2
  | readFails _ _ h2 => cases hr.symm.trans h2
  | updateWaits _ _ _ _ _ h2 => cases hr.symm.trans h2
  | fastPath a h6 h2 => exact ⟨_, echo h2 (by simp), .inl ⟨h6, rfl⟩⟩
  | shortCircuit r _ _ _ h2 => cases hr.symm.trans h2; exact ⟨_, rfl, .inr ⟨r, by simp [addrCfg], rfl⟩⟩
  | update r a _ _ _ h2 => exact ⟨_, echo h2 (by simp), .inr ⟨r, by simp [addrCfg], rfl⟩⟩

end Sys2Proof.Machine
end

section
/-! PROOFS. The reference stub (20_memory.md R54), and a CMRG on it: O44, O37. -/

namespace Sys2Proof.Machine

/-- The stub fails a call whose entry of the script says so. -/
theorem State.serve_stub_fails {s : State} (hb : s.binding = .stub) (hf : s.failScript.headD false = true)
    (q : Request) :
    s.serve q = some (.fail, State.answered q .fail { s with failScript := s.failScript.tail }) := by
  simp only [State.serve, hb, hf, if_true]

/-- The stub answers a call whose entry of the script does not fail it. -/
theorem State.serve_stub_answers {s : State} (hb : s.binding = .stub) (hf : s.failScript.headD false = false)
    (q : Request) :
    s.serve q = some (stubAnswer s.store q, State.answered q (stubAnswer s.store q)
      { s with store := stubStore s.store q, failScript := s.failScript.tail }) := by
  simp only [State.serve, hb, hf, Bool.false_eq_true, if_false]

/-- Settles O44: the script's next entry decides; a write is read back and leaves every other register. -/
theorem stubFollowsItsScript : Obligations.StubFollowsItsScript := by
  intro s d a v hb hwf
  refine ⟨fun hf q => State.serve_stub_fails hb hf q, fun hf => ⟨State.serve_stub_answers hb hf (.rd d a),
    s.store.write a.toNat v, State.serve_stub_answers hb hf (.wr d a v), ?_⟩⟩
  exact ⟨stubStore_wf s.store (.wr d a v) hwf, Memory.read_write_same s.store a.toNat v hwf,
    fun b hne => Memory.read_write_other s.store a.toNat b v hne⟩

/-! ### A CMRG whose calls the stub answers at once -/

/-- A write issued with no delay and no failure ends the CMRG: the register is stored and the echo is the result. -/
theorem engine_stub_write {s : State} (d : DevAddr) (a : RegAddr) (v : Register) (hp : s.phase = .wrWait)
    (hb : s.binding = .stub) (hf : s.failScript = []) (hl : s.latency = []) :
    (engine (s.issue (.wr d a v))).result = some (.reg v) ∧
      (engine (s.issue (.wr d a v))).store = s.store.write a.toNat v := by
  have hr := State.respond_stub (s := s.issue (.wr d a v)) (q := .wr d a v) (by simp [hl]) hb (by simp [hf])
  rw [engine_write (s := s.issue (.wr d a v)) hp hr, writeAnswered_eq_complete]
  exact ⟨State.complete_result _ _, State.complete_store _ _⟩

/-- A read issued with no delay and no failure answers the register and leaves the store. -/
theorem respond_stub_read {s : State} (d : DevAddr) (a : RegAddr) (hb : s.binding = .stub) (hf : s.failScript = [])
    (hl : s.latency = []) :
    ∃ t, (s.issue (.rd d a)).respond = some (.ok (s.store.read a.toNat), t) ∧ t.ovr = s.ovr ∧ t.store = s.store ∧
      t.binding = .stub ∧ t.failScript = [] ∧ t.latency = [] :=
  ⟨_, State.respond_stub (s := s.issue (.rd d a)) (q := .rd d a) (by simp [hl]) hb (by simp [hf]),
    rfl, rfl, hb, by simp [hf], by simp [hl]⟩

/-- What a CMRG makes of the stub `m` when it returns the image `w`: it has written it, or `m` held its fields already
(42_merge_engine.md R110, R111). -/
def Updates (m : Memory) (w : Register) (t : State) : Prop :=
  t.result = some (.reg w) ∧ (t.store = m.write 1 w ∨ w = cenc (cdec (m.read 1)) ∧ t.store = m)

/-- Once the read has answered, the CMRG ends in the same step. -/
theorem runEngine_readAnswered_stub {s : State} {r : Register} (hb : s.binding = .stub) (hf : s.failScript = [])
    (hl : s.latency = []) (hr : s.store.read 1 = r) :
    Updates s.store (cenc (s.ovr.merge (cdec r))) (runEngine (readAnswered (.ok r) s)) := by
  by_cases he : cenc (s.ovr.merge (cdec r)) = cenc (cdec r)
  · rw [readAnswered_unchanged he, runEngine_of_not_reading (by simp), engine_idle (by simp)]
    exact ⟨State.complete_result _ _, .inr ⟨hr ▸ he, State.complete_store _ _⟩⟩
  · rw [readAnswered_changed he, runEngine_write rfl]
    obtain ⟨hres, hstore⟩ := engine_stub_write s.latched addrCfg (cenc (s.ovr.merge (cdec r)))
      (s := { s with cur := r, cand := cenc (s.ovr.merge (cdec r)), phase := .wrWait }) rfl hb hf hl
    exact ⟨hres, .inl hstore⟩

/-- With no delay and no failure a CMRG updates the stub to the merge with what CFGR held (42_merge_engine.md R112). -/
theorem exec_cmrg_stub (d : DevAddr) {o : Overrides} {s : State} (hp : s.phase = .idle) (hfac : s.facade = none)
    (hb : s.binding = .stub) (hf : s.failScript = []) (hl : s.latency = []) (ho : 1 ≤ o.count) :
    ∃ t, exec (.cmrg d o) s = .next t ∧ Updates s.store (cenc (o.merge (cdec (s.store.read 1)))) t := by
  refine ⟨_, exec_cmrg_ready hp hfac, ?_⟩
  by_cases h6 : o.count = 6
  · have hblank : cenc (o.merge blankConfiguration) = cenc (o.merge (cdec (s.store.read 1))) :=
      cenc_eq_iff.2 (ceq_merge_of_count_six h6 _ _)
    rw [cmrgAccept_all h6, runEngine_write rfl, hblank]
    obtain ⟨hres, hstore⟩ := engine_stub_write d addrCfg (cenc (o.merge (cdec (s.store.read 1)))) (s := { s with
      ovr := o, latched := d, result := none, cand := cenc (o.merge (cdec (s.store.read 1))), phase := .wrWait })
      rfl hb hf hl
    exact ⟨hres, .inl hstore⟩
  · rw [cmrgAccept_partial (by omega) h6]
    obtain ⟨t, hr, hto, hts, htb, htf, htl⟩ := respond_stub_read d addrCfg (s := { s with
      ovr := o, latched := d, result := none, phase := .rdWait }) hb hf hl
    rw [runEngine_read (by exact rfl) hr]
    have h := runEngine_readAnswered_stub htb htf htl (congrArg (Memory.read · addrCfg.toNat) hts)
    rw [hts, hto] at h
    exact h

/-- Settles O37: the candidate is written or was there already, and its image decodes to it. -/
theorem cmrgUpdatesStubRegister : Obligations.CmrgUpdatesStubRegister := by
  intro d o s hp hfac hb hf hl hwf ho
  obtain ⟨t, ht, hres, hstore⟩ := exec_cmrg_stub d hp hfac hb hf hl ho
  refine ⟨t, ht, hres, ?_⟩
  obtain hstore | ⟨hsame, hstore⟩ := hstore
  · rw [hstore, Memory.read_write_same _ _ _ hwf]
    exact ⟨ceq_cdec_cenc _, fun a hne => Memory.read_write_other _ _ _ _ hne⟩
  · rw [hstore]
    exact ⟨ceq_symm (cenc_eq_iff.1 hsame), fun _ _ => rfl⟩

end Sys2Proof.Machine
end

section
/-! PROOFS. The invariant of the machine, with the transport that is bound, is kept by every step. -/

namespace Sys2Proof.Machine

open Sys2Proof.Safety

/-- What the invariant says of a state beside its port, and which transport is bound. -/
structure Sound (b : Binding) (s : State) : Prop where
  binding : s.binding = b
  store_wf : s.store.wf = true
  devaddr_mem : s.devaddr ∈ Config.devAddrSet
  history_legal : ∀ e ∈ s.history, legalRequest e.req = true

/-- The invariant, and which transport is bound. -/
structure Coherent (b : Binding) (s : State) : Prop extends Sound b s where
  port : PortCoherent s

theorem coherent_iff {b : Binding} {s : State} : Coherent b s ↔ MachineInv s ∧ s.binding = b :=
  ⟨fun C => ⟨⟨C.store_wf, C.devaddr_mem, C.history_legal, C.port⟩, C.binding⟩,
    fun ⟨I, hb⟩ => ⟨⟨hb, I.store_wf, I.devaddr_mem, I.history_legal⟩, I.port_coherent⟩⟩

/-- A Facade operation in flight made the call at the port (43_facade_boundary.md R125). -/
theorem portCoherent_facade {s : State} {p : Pseudo} (hp : s.phase = .idle) (hf : s.facade = some p) :
    PortCoherent s ↔ ∃ c, s.call = some c ∧ facadeRequest s.devaddr p = some c.req := by
  simp only [PortCoherent, hp, hf]

theorem portCoherent_free {s : State} (hp : s.phase = .idle) (hf : s.facade = none) :
    PortCoherent s ↔ s.call = none := by
  simp only [PortCoherent, hp, hf]

theorem portCoherent_reading {s : State} (hp : s.phase = .rdWait) :
    PortCoherent s ↔ delegated s.facade = true ∧ 1 ≤ s.ovr.count ∧ s.ovr.count ≤ 5 ∧
      ∃ n, s.call = some { req := .rd s.latched addrCfg, left := n } := by
  simp only [PortCoherent, hp]

theorem portCoherent_writing {s : State} (hp : s.phase = .wrWait) :
    PortCoherent s ↔ delegated s.facade = true ∧ 1 ≤ s.ovr.count ∧ canonicalCfg s.cand = true ∧
      s.cand = candidateImage s ∧ ∃ n, s.call = some { req := .wr s.latched addrCfg s.cand, left := n } := by
  simp only [PortCoherent, hp]

theorem facadeRequest_legal {d : DevAddr} {p : Pseudo} {q : Request} (h : facadeRequest d p = some q) :
    legalRequest q = true := by
  cases p <;> cases h <;> simp [legalRequest]

section
variable {b : Binding} {s t : State}

theorem Sound.of_eq (S : Sound b s) (hb : t.binding = s.binding) (hm : t.store = s.store)
    (hd : t.devaddr = s.devaddr) (hh : t.history = s.history) : Sound b t :=
  ⟨hb.trans S.binding, hm ▸ S.store_wf, hd ▸ S.devaddr_mem, hh ▸ S.history_legal⟩

theorem Coherent.idle (S : Sound b s) (hp : s.phase = .idle) (hf : s.facade = none) (hc : s.call = none) :
    Coherent b s :=
  ⟨S, (portCoherent_free hp hf).2 hc⟩

theorem Coherent.call_none (C : Coherent b s) (hr : s.ready = true) : s.call = none := by
  obtain ⟨hp, hf⟩ := (State.ready_iff s).1 hr
  exact (portCoherent_free hp hf).1 C.port

/-- The call outstanding is a legal one (20_memory.md R53, 42_merge_engine.md R116). -/
theorem Coherent.call_legal (C : Coherent b s) {c : Call} (hc : s.call = some c) : legalRequest c.req = true := by
  cases hp : s.phase with
  | idle =>
    cases hf : s.facade with
    | none => rw [(portCoherent_free hp hf).1 C.port] at hc; cases hc
    | some p =>
      obtain ⟨c', hc', hq⟩ := (portCoherent_facade hp hf).1 C.port
      rw [hc] at hc'
      cases hc'
      exact facadeRequest_legal hq
  | rdWait =>
    obtain ⟨-, -, -, n, hn⟩ := (portCoherent_reading hp).1 C.port
    rw [hc] at hn
    cases hn
    rfl
  | wrWait =>
    obtain ⟨-, -, hcan, -, n, hn⟩ := (portCoherent_writing hp).1 C.port
    rw [hc] at hn
    cases hn
    simp [legalRequest, hcan]

/-! ### The transport and the engine -/

theorem Coherent.sound_of_respond (C : Coherent b s) {a : Answer} (h : s.respond = some (a, t)) : Sound b t := by
  obtain ⟨c, hc, -, as, fs, m, rfl, hm⟩ := State.respond_spec h
  refine ⟨C.binding, hm C.store_wf, C.devaddr_mem, fun e he => ?_⟩
  obtain he | he := List.mem_append.1 he
  · exact C.history_legal e he
  · rw [List.mem_singleton.1 he]; exact C.call_legal hc

theorem complete_facade {r : Result} (hd : delegated s.facade = true) : (s.complete r).facade = none := by
  cases hf : s.facade with
  | none => rw [State.complete_of_no_facade r s hf]; exact hf
  | some p =>
    cases p with
    | setCfg o => rw [State.complete_of_setCfg r s o hf]
    | _ => rw [hf] at hd; cases hd

/-- A CMRG that ends leaves the port free and no operation in flight. -/
theorem coherent_complete {r : Result} (S : Sound b s) (hd : delegated s.facade = true) (hc : s.call = none) :
    Coherent b (s.complete r) :=
  .idle (S.of_eq (by simp) (by simp) (by simp) (by simp)) (by simp) (complete_facade hd) (by simp [hc])

theorem coherent_readAnswered {a : Answer} (S : Sound b s) (hd : delegated s.facade = true) (hc : s.call = none)
    (h1 : 1 ≤ s.ovr.count) (h5 : s.ovr.count ≤ 5) : Coherent b (readAnswered a s) := by
  cases a with
  | fail => exact coherent_complete S hd hc
  | ok r =>
    by_cases h : cenc (s.ovr.merge (cdec r)) = cenc (cdec r)
    · rw [readAnswered_unchanged h]
      exact coherent_complete (S.of_eq rfl rfl rfl rfl) hd hc
    · rw [readAnswered_changed h]
      have h6 : s.ovr.count ≠ 6 := by omega
      exact ⟨S.of_eq rfl rfl rfl rfl, (portCoherent_writing rfl).2
        ⟨hd, h1, cenc_canonical _, by simp [candidateImage, h6], _, rfl⟩⟩

theorem coherent_engine (C : Coherent b s) : Coherent b (engine s) := by
  cases hr : s.respond with
  | none => rw [engine_waits hr]; exact C
  | some y =>
    obtain ⟨a, t⟩ := y
    have S : Sound b t := C.sound_of_respond hr
    obtain ⟨c, -, -, ho, -, hf, -, -, hc⟩ := State.respond_facts hr
    cases hp : s.phase with
    | idle => rw [engine_idle hp]; exact C
    | rdWait =>
      obtain ⟨hd, h1, h5, -⟩ := (portCoherent_reading hp).1 C.port
      rw [engine_read hp hr]
      exact coherent_readAnswered S (hf ▸ hd) hc (ho ▸ h1) (ho ▸ h5)
    | wrWait =>
      obtain ⟨hd, -⟩ := (portCoherent_writing hp).1 C.port
      rw [engine_write hp hr, writeAnswered_eq_complete]
      exact coherent_complete S (hf ▸ hd) hc

theorem coherent_runEngine (C : Coherent b s) : Coherent b (runEngine s) := coherent_engine (coherent_engine C)

theorem coherent_cmrgAccept {d : DevAddr} {o : Overrides} (S : Sound b s) (hd : delegated s.facade = true)
    (hc : s.call = none) : Coherent b (cmrgAccept d o s) := by
  by_cases h0 : o.count = 0
  · rw [cmrgAccept_none h0]
    exact coherent_complete (S.of_eq rfl rfl rfl rfl) hd hc
  · have h1 : 1 ≤ o.count := by omega
    by_cases h6 : o.count = 6
    · rw [cmrgAccept_all h6]
      exact ⟨S.of_eq rfl rfl rfl rfl, (portCoherent_writing rfl).2
        ⟨hd, h1, cenc_canonical _, by simp [candidateImage, h6], _, rfl⟩⟩
    · rw [cmrgAccept_partial h0 h6]
      have h5 : o.count ≤ 5 := by have := o.count_le; omega
      exact ⟨S.of_eq rfl rfl rfl rfl, (portCoherent_reading rfl).2 ⟨hd, h1, h5, _, rfl⟩⟩

/-! ### The Facade -/

theorem coherent_facadeFinish {p : Pseudo} {a : Answer} (S : Sound b s) (hp : s.phase = .idle)
    (hf : s.facade = none) (hc : s.call = none) : Coherent b (facadeFinish p a s) := by
  have hd : delegated s.facade = true := by rw [hf]; rfl
  unfold facadeFinish
  split <;>
    exact .idle (S.of_eq (by simp) (by simp) (by simp) (by simp)) (by simp [hp]) (by simp [hf, complete_facade hd])
      (by simp [hc])

theorem coherent_facadeRun (C : Coherent b s) (hp : s.phase = .idle) : Coherent b (facadeRun s) := by
  cases hr : s.respond with
  | none => rw [facadeRun_waits hr]; exact C
  | some y =>
    obtain ⟨a, t⟩ := y
    cases hf : s.facade with
    | none => rw [facadeRun_idle hf]; exact C
    | some p =>
      obtain ⟨c, -, -, -, -, -, -, htp, htc⟩ := State.respond_facts hr
      rw [facadeRun_answered hf hr]
      exact coherent_facadeFinish ((C.sound_of_respond hr).of_eq rfl rfl rfl rfl) (htp.trans hp) rfl htc

theorem coherent_facadeCall {p : Pseudo} {q : Request} (S : Sound b s) (hp : s.phase = .idle)
    (hq : facadeRequest s.devaddr p = some q) : Coherent b (facadeCall p q s) :=
  coherent_facadeRun ⟨S.of_eq rfl rfl rfl rfl, (portCoherent_facade (by exact hp) rfl).2 ⟨_, rfl, hq⟩⟩ hp

/-! ### The step -/

theorem coherent_countdown (C : Coherent b s) : Coherent b s.tick.countdown := by
  refine ⟨C.toSound.of_eq (by simp) (by simp) (by simp) (by simp), ?_⟩
  cases hc : s.call with
  | none => rw [State.countdown, State.tick_call, hc]; exact C.port
  | some c =>
    obtain ⟨q, n⟩ := c
    rw [State.countdown_call hc]
    cases hp : s.phase with
    | idle =>
      cases hf : s.facade with
      | none => rw [(portCoherent_free hp hf).1 C.port] at hc; cases hc
      | some p =>
        obtain ⟨c, hc', hq⟩ := (portCoherent_facade hp hf).1 C.port
        rw [hc] at hc'
        cases hc'
        exact (portCoherent_facade rfl rfl).2 ⟨_, rfl, hq⟩
    | rdWait =>
      obtain ⟨hd, h1, h5, m, hm⟩ := (portCoherent_reading hp).1 C.port
      rw [hc] at hm
      cases hm
      exact (portCoherent_reading rfl).2 ⟨hd, h1, h5, _, rfl⟩
    | wrWait =>
      obtain ⟨hd, h1, hcan, hcand, m, hm⟩ := (portCoherent_writing hp).1 C.port
      rw [hc] at hm
      cases hm
      exact (portCoherent_writing rfl).2 ⟨hd, h1, hcan, hcand, _, rfl⟩

theorem coherent_await (C : Coherent b s) : Coherent b (await s) := by
  unfold await goOn
  split
  next hp => exact coherent_facadeRun (coherent_countdown C) hp
  next => exact coherent_runEngine (coherent_countdown C)

theorem coherent_inputs (C : Coherent b s) (rest : List Input) : Coherent b { s with inputs := rest } :=
  ⟨C.toSound.of_eq rfl rfl rfl rfl, C.port⟩

theorem coherent_changeDevice (C : Coherent b s) (a : RegAddr) (v : Register) : Coherent b (s.changeDevice a v) :=
  ⟨⟨C.binding, Memory.wf_write _ _ _ (by omega) C.store_wf, C.devaddr_mem, C.history_legal⟩, C.port⟩

theorem coherent_resetBlock (C : Coherent b s) : Coherent b s.resetBlock :=
  .idle ⟨C.binding, C.store_wf, C.devaddr_mem, by simp [State.resetBlock]⟩ rfl rfl rfl

/-- An operation of CORE taken up runs the engine from the acceptance of its CMRG, or ends at once with a result. -/
theorem exec_taken (hr : s.ready = true) {i : Instr} (h : exec i s = .next t) :
    (∃ d o, t = runEngine (cmrgAccept d o s)) ∨
      ∃ r, t = { s with result := some r, phase := .idle, epoch := s.epoch + 1 } := by
  obtain ⟨hp, hf⟩ := (State.ready_iff s).1 hr
  by_cases hi : ∃ d o, i = .cmrg d o
  · obtain ⟨d, o, rfl⟩ := hi
    rw [exec_cmrg_ready hp hf] at h
    cases h
    exact .inl ⟨d, o, rfl⟩
  · obtain ⟨r, hx⟩ := exec_codec (i := i) fun d o e => hi ⟨d, o, e⟩
    rw [hx s hp hf] at h
    cases h
    exact .inr ⟨r, rfl⟩

theorem coherent_exec (C : Coherent b s) (hr : s.ready = true) {i : Instr} (h : exec i s = .next t) :
    Coherent b t := by
  obtain ⟨-, hf⟩ := (State.ready_iff s).1 hr
  obtain ⟨d, o, rfl⟩ | ⟨r, rfl⟩ := exec_taken hr h
  · exact coherent_runEngine (coherent_cmrgAccept C.toSound (by rw [hf]; rfl) (C.call_none hr))
  · exact .idle (C.toSound.of_eq rfl rfl rfl rfl) rfl hf (C.call_none hr)

/-- What a Facade operation taken up in `s` does: it makes its one call (TENC's result left at the ports before SETHI's
and SETLO's), runs a CMRG, or re-addresses (43_facade_boundary.md R126 to R132). -/
inductive PseudoTaken (s t : State) : Prop
  | call (p : Pseudo) (q : Request) (re : Option Result) (ep : Nat) (hq : facadeRequest s.devaddr p = some q)
      (ht : t = facadeCall p q { s with phase := .idle, result := re, epoch := ep })
  | setCfg (o : Overrides) (ht : t = runEngine (cmrgAccept s.devaddr o
      { s with facade := some (.setCfg o), facadeResult := none }))
  | setAddr (a : DevAddr) (ha : a ∈ Config.devAddrSet)
      (ht : t = { s with devaddr := a, facadeResult := some .readdressed })

theorem execPseudo_taken (hr : s.ready = true) {p : Pseudo} (h : execPseudo p s = .next t) : PseudoTaken s t := by
  obtain ⟨hp, hf⟩ := (State.ready_iff s).1 hr
  have hs : { s with phase := .idle, result := s.result, epoch := s.epoch } = s := by rw [← hp]
  have taken {go : State} (hgo : s.whenReady go = .next t) : t = go := by
    rw [State.whenReady_ready s go hr] at hgo; cases hgo; rfl
  have read {p : Pseudo} {q : Request} (hq : facadeRequest s.devaddr p = some q) (ht : t = facadeCall p q s) :
      PseudoTaken s t := .call p q s.result s.epoch hq (by rw [hs, ht])
  have limit {p : Pseudo} {q : Request} {r : Result} (hq : facadeRequest s.devaddr p = some q)
      (ht : t = facadeCall p q (s.complete r)) : PseudoTaken s t :=
    .call p q (some r) (s.epoch + 1) hq (by rw [ht, State.complete_of_no_facade r s hf])
  cases p with
  | getTemp => exact read rfl (taken h)
  | getId => exact read rfl (taken h)
  | getCfgRaw => exact read rfl (taken h)
  | getCfg => exact read rfl (taken h)
  | setCfg o => exact .setCfg o (taken h)
  | setHi x => exact limit rfl (taken h)
  | setLo x => exact limit rfl (taken h)
  | setAddr a =>
    simp only [execPseudo, hr, if_true, setAddr] at h
    split at h
    next ha => cases h; exact .setAddr a (by simpa [WellFormed.pseudo] using ha) rfl
    next => cases h

theorem coherent_execPseudo (C : Coherent b s) (hr : s.ready = true) {p : Pseudo} (h : execPseudo p s = .next t) :
    Coherent b t := by
  obtain ⟨hp, hf⟩ := (State.ready_iff s).1 hr
  have hc : s.call = none := C.call_none hr
  cases execPseudo_taken hr h with
  | call p q re ep hq ht => rw [ht]; exact coherent_facadeCall (C.toSound.of_eq rfl rfl rfl rfl) rfl hq
  | setCfg o ht =>
    rw [ht]
    exact coherent_runEngine (coherent_cmrgAccept (C.toSound.of_eq rfl rfl rfl rfl) rfl hc)
  | setAddr a ha ht => rw [ht]; exact .idle ⟨C.binding, C.store_wf, ha, C.history_legal⟩ hp hf hc

/-- Every step keeps the invariant and the transport that is bound (42_merge_engine.md R116, R117). -/
theorem coherent_step (C : Coherent b s) (h : step s = .next t) : Coherent b t := by
  cases step_takes h with
  | goesOn ht => rw [ht]; exact coherent_await C
  | quiet rest _ ht => rw [ht]; exact coherent_await (coherent_inputs C rest)
  | deviceChange a v rest _ ht => rw [ht]; exact coherent_await (coherent_changeDevice (coherent_inputs C rest) a v)
  | reset rest _ ht => rw [ht]; exact coherent_resetBlock (coherent_inputs C rest)
  | command w i rest _ hr _ ht => exact coherent_exec (coherent_inputs C rest) hr ht
  | pseudo p rest _ hr ht => exact coherent_execPseudo (coherent_inputs C rest) hr ht

end

end Sys2Proof.Machine
end

section
/-! PROOFS. Under `SingleWriter` the stub's CFGR stays as the read of a CMRG returned it until its write: O60. -/

namespace Sys2Proof.Machine

open Sys2Proof.Safety

theorem betweenReadAndWrite_iff {s : State} : betweenReadAndWrite s = true ↔ s.phase = .wrWait ∧ s.ovr.count ≠ 6 := by
  simp [betweenReadAndWrite]

section
variable {b : Binding} {s t : State}

/-- Out of WR_WAIT there is no read that could be out of date. -/
theorem readIsCurrent_of_phase (h : s.phase ≠ .wrWait) : ReadIsCurrent s := fun hb _ =>
  absurd (betweenReadAndWrite_iff.1 hb).1 h

theorem readIsCurrent_of_idle (h : s.phase = .idle) : ReadIsCurrent s := readIsCurrent_of_phase (by simp [h])

/-! ### What the stub answers -/

/-- The stub fails the outstanding call and keeps its store, or answers it as R54 says. -/
theorem respond_stub_cases (hb : s.binding = .stub) {q : Request} {n : Nat} {a : Answer}
    (hc : s.call = some { req := q, left := n }) (h : s.respond = some (a, t)) :
    a = .fail ∨ a = stubAnswer s.store q ∧ t.store = stubStore s.store q := by
  obtain ⟨c, hc', hl, -⟩ := State.respond_spec h
  rw [hc] at hc'
  cases hc'
  obtain rfl : n = 0 := hl
  cases hf : s.failScript.headD false with
  | true =>
    rw [State.respond, hc] at h
    dsimp only at h
    rw [if_pos rfl, State.serve_stub_fails hb hf] at h
    cases h
    exact .inl rfl
  | false =>
    rw [State.respond_stub hc hb hf] at h
    cases h
    exact .inr ⟨rfl, rfl⟩

/-! ### The engine and the operations -/

/-- A read that has just answered is current. -/
theorem readIsCurrent_readAnswered {r : Register} (h : s.store.read addrCfg.toNat = r) :
    ReadIsCurrent (readAnswered (.ok r) s) := by
  by_cases he : cenc (s.ovr.merge (cdec r)) = cenc (cdec r)
  · rw [readAnswered_unchanged he]
    exact readIsCurrent_of_phase (by simp)
  · rw [readAnswered_changed he]
    exact fun _ _ => by simp [h, ceq_refl]

theorem readIsCurrent_engine (C : Coherent .stub s) (R : ReadIsCurrent s) : ReadIsCurrent (engine s) := by
  cases hr : s.respond with
  | none => rw [engine_waits hr]; exact R
  | some y =>
    obtain ⟨a, t⟩ := y
    cases hp : s.phase with
    | idle => rw [engine_idle hp]; exact R
    | wrWait => rw [engine_write hp hr]; exact readIsCurrent_of_phase (by simp)
    | rdWait =>
      obtain ⟨-, -, -, n, hc⟩ := (portCoherent_reading hp).1 C.port
      rw [engine_read hp hr]
      obtain rfl | ⟨rfl, hm⟩ := respond_stub_cases C.binding hc hr
      · exact readIsCurrent_of_phase (by simp [readAnswered])
      · exact readIsCurrent_readAnswered (congrArg (Memory.read · addrCfg.toNat) hm)

theorem readIsCurrent_runEngine (C : Coherent .stub s) (R : ReadIsCurrent s) : ReadIsCurrent (runEngine s) :=
  readIsCurrent_engine (coherent_engine C) (readIsCurrent_engine C R)

/-- A CMRG that has just been accepted has read nothing. -/
theorem readIsCurrent_cmrgAccept (d : DevAddr) (o : Overrides) (s : State) : ReadIsCurrent (cmrgAccept d o s) := by
  by_cases h0 : o.count = 0
  · rw [cmrgAccept_none h0]; exact readIsCurrent_of_phase (by simp)
  · by_cases h6 : o.count = 6
    · rw [cmrgAccept_all h6]
      exact fun hb _ => absurd h6 (betweenReadAndWrite_iff.1 hb).2
    · rw [cmrgAccept_partial h0 h6]
      exact readIsCurrent_of_phase (by simp)

theorem facadeFinish_phase {p : Pseudo} {a : Answer} (hp : s.phase = .idle) : (facadeFinish p a s).phase = .idle := by
  unfold facadeFinish
  split <;> simp [hp]

theorem facadeRun_phase (hp : s.phase = .idle) : (facadeRun s).phase = .idle := by
  cases hr : s.respond with
  | none => rw [facadeRun_waits hr]; exact hp
  | some y =>
    obtain ⟨a, t⟩ := y
    cases hf : s.facade with
    | none => rw [facadeRun_idle hf]; exact hp
    | some p =>
      obtain ⟨c, -, -, -, -, -, -, htp, -⟩ := State.respond_facts hr
      rw [facadeRun_answered hf hr]
      exact facadeFinish_phase (htp.trans hp)

theorem readIsCurrent_await (C : Coherent .stub s) (R : ReadIsCurrent s) : ReadIsCurrent (await s) := by
  have R' : ReadIsCurrent s.tick.countdown := by simpa [ReadIsCurrent, betweenReadAndWrite] using R
  unfold await goOn
  split
  next hp => exact readIsCurrent_of_idle (facadeRun_phase hp)
  next => exact readIsCurrent_runEngine (coherent_countdown C) R'

/-! ### The step -/

/-- The change that `SingleWriter` allows keeps the fields that the read returned (20_memory.md R49). -/
theorem readIsCurrent_changeDevice {a : RegAddr} {v : Register} {rest : List Input} (C : Coherent b s)
    (R : ReadIsCurrent s) (hi : s.inputs = .deviceChange a v :: rest) (hw : singleWriterHere s = true) :
    ReadIsCurrent (s.changeDevice a v) := by
  intro hb hs
  have hallowed : a ≠ addrCfg ∨ ceq (cdec v) (cdec s.cur) = true := by
    have hbs : betweenReadAndWrite s = true := hb
    simpa [singleWriterHere, hi, hbs] using hw
  by_cases ha : a = addrCfg
  · rw [ha, State.changeDevice, Memory.read_write_same _ _ _ C.store_wf]
    exact hallowed.resolve_left (not_not_intro ha)
  · have hne : addrCfg.toNat ≠ a.toNat := fun e => ha (BitVec.eq_of_toNat_eq e.symm)
    rw [State.changeDevice, Memory.read_write_other _ _ _ _ hne]
    exact R hb hs

theorem readIsCurrent_exec (C : Coherent .stub s) (hr : s.ready = true) {i : Instr} (h : exec i s = .next t) :
    ReadIsCurrent t := by
  obtain ⟨-, hf⟩ := (State.ready_iff s).1 hr
  obtain ⟨d, o, rfl⟩ | ⟨r, rfl⟩ := exec_taken hr h
  · exact readIsCurrent_runEngine (coherent_cmrgAccept C.toSound (by rw [hf]; rfl) (C.call_none hr))
      (readIsCurrent_cmrgAccept d o s)
  · exact readIsCurrent_of_idle rfl

theorem readIsCurrent_execPseudo (C : Coherent .stub s) (hr : s.ready = true) {p : Pseudo}
    (h : execPseudo p s = .next t) : ReadIsCurrent t := by
  obtain ⟨hp, hf⟩ := (State.ready_iff s).1 hr
  cases execPseudo_taken hr h with
  | call p q re ep _ ht => rw [ht]; exact readIsCurrent_of_idle (facadeRun_phase rfl)
  | setCfg o ht =>
    rw [ht]
    exact readIsCurrent_runEngine (coherent_cmrgAccept (C.toSound.of_eq rfl rfl rfl rfl) rfl (C.call_none hr))
      (readIsCurrent_cmrgAccept _ o _)
  | setAddr a _ ht => rw [ht]; exact readIsCurrent_of_idle hp

/-- A step in which the premise holds keeps CFGR's fields as the read returned them (92_eei_decisions.md). -/
theorem readIsCurrent_step (C : Coherent b s) (R : ReadIsCurrent s) (hw : singleWriterHere s = true)
    (h : step s = .next t) : ReadIsCurrent t := by
  cases b with
  | external => intro _ hs; rw [(coherent_step C h).binding] at hs; cases hs
  | stub =>
    cases step_takes h with
    | goesOn ht => rw [ht]; exact readIsCurrent_await C R
    | quiet rest _ ht => rw [ht]; exact readIsCurrent_await (coherent_inputs C rest) R
    | deviceChange a v rest hi ht =>
      have R' : ReadIsCurrent (s.changeDevice a v) := readIsCurrent_changeDevice C R hi hw
      rw [ht]
      exact readIsCurrent_await (coherent_changeDevice (coherent_inputs C rest) a v) R'
    | reset rest _ ht => rw [ht]; exact readIsCurrent_of_idle rfl
    | command w i rest _ hr _ ht => exact readIsCurrent_exec (coherent_inputs C rest) hr ht
    | pseudo p rest _ hr ht => exact readIsCurrent_execPseudo (coherent_inputs C rest) hr ht

/-! ### The run -/

/-- A run of one step more begins with a step. -/
theorem run_succ_inv {n : Nat} {u : State} (h : Sys2Proof.core.run (n + 1) s = .next u) :
    ∃ t, step s = .next t ∧ Sys2Proof.core.run n t = .next u := by
  cases hs : step s with
  | next t => rw [run_succ n hs] at h; exact ⟨t, rfl, h⟩
  | fault r => cases r
  | refused r =>
    have hr : Sys2Proof.core.run (n + 1) s = .refused r := by
      refine (Host.Core.run.eq_2 Sys2Proof.core s n).trans ?_
      rw [show Sys2Proof.core.step s = .refused r from hs]
    rw [hr] at h
    cases h

theorem singleWriter_here {n : Nat} (W : SingleWriter n s) : singleWriterHere s = true := W 0 s n.zero_le (run_zero s)

theorem singleWriter_step {n : Nat} (W : SingleWriter (n + 1) s) (h : step s = .next t) : SingleWriter n t :=
  fun k x hk hx => W (k + 1) x (by omega) ((run_succ k h).trans hx)

theorem readIsCurrent_run {n : Nat} {u : State} (C : Coherent b s) (R : ReadIsCurrent s) (W : SingleWriter n s)
    (h : Sys2Proof.core.run n s = .next u) : Coherent b u ∧ ReadIsCurrent u := by
  induction n generalizing s with
  | zero => cases h; exact ⟨C, R⟩
  | succ n ih =>
    obtain ⟨t, ht, hu⟩ := run_succ_inv h
    exact ih (coherent_step C ht) (readIsCurrent_step C R (singleWriter_here W) ht) (singleWriter_step W ht) hu

/-! ### The write -/

/-- A CMRG in WR_WAIT that ends with a register while nothing is taken up has written CAND and returns it. -/
theorem await_writes (C : Coherent .stub s) (hp : s.phase = .wrWait) {v : Register} (hi : (await s).phase = .idle)
    (hv : (await s).result = some (.reg v)) : v = s.cand ∧ (await s).store.read 1 = s.cand := by
  have C' : Coherent .stub s.tick.countdown := coherent_countdown C
  have hp' : s.tick.countdown.phase = .wrWait := by simp [hp]
  obtain ⟨-, -, -, -, n, hc⟩ := (portCoherent_writing hp').1 C'.port
  have hawait : await s = engine s.tick.countdown := by
    rw [await, goOn, if_neg (by simp [hp]), runEngine_write hp']
  rw [hawait] at hi hv ⊢
  cases hr : s.tick.countdown.respond with
  | none => rw [engine_waits hr, hp'] at hi; cases hi
  | some y =>
    obtain ⟨a, t⟩ := y
    rw [engine_write hp' hr] at hv ⊢
    rw [writeAnswered_result] at hv
    obtain rfl | ⟨rfl, hm⟩ := respond_stub_cases C'.binding hc hr
    · cases hv
    · cases hv
      rw [writeAnswered_eq_complete, State.complete_store, hm]
      exact ⟨by simp, (Memory.read_write_same _ _ _ C'.store_wf).trans (by simp)⟩

/-- The step in which a CMRG in WR_WAIT ends with a register has written CAND and returns it, whatever was presented. -/
theorem step_writes (C : Coherent .stub s) (hp : s.phase = .wrWait) (h : step s = .next t) {v : Register}
    (hi : t.phase = .idle) (hv : t.result = some (.reg v)) : v = s.cand ∧ t.store.read 1 = s.cand := by
  have busy (hr : s.ready = true) : False := by
    have hidle := ((State.ready_iff s).1 hr).1
    rw [hp] at hidle; cases hidle
  cases step_takes h with
  | goesOn ht => subst ht; exact await_writes C hp hi hv
  | quiet rest _ ht => subst ht; exact await_writes (coherent_inputs C rest) hp hi hv
  | deviceChange a w rest _ ht =>
    subst ht; exact await_writes (coherent_changeDevice (coherent_inputs C rest) a w) hp hi hv
  | reset rest _ ht => subst ht; cases hv
  | command _ _ _ _ hr _ _ => exact (busy hr).elim
  | pseudo _ _ _ hr _ => exact (busy hr).elim

end

/-- Settles O60: the candidate is the merge with CUR, and CUR's fields are those that CFGR still holds. -/
theorem singleWriterPreventsLostUpdates : Obligations.SingleWriterPreventsLostUpdates := by
  constructor
  · intro s t I R hw h
    exact readIsCurrent_step (coherent_iff.2 ⟨I, rfl⟩) R hw h
  · intro s u t n v I hp hb W hu hbetween ht hi hv
    obtain ⟨C, R⟩ := readIsCurrent_run (coherent_iff.2 ⟨I, hb⟩) (readIsCurrent_of_idle hp) W hu
    obtain ⟨hwr, h6⟩ := betweenReadAndWrite_iff.1 hbetween
    obtain ⟨-, -, -, hcand, -⟩ := (portCoherent_writing hwr).1 C.port
    rw [candidateImage, if_neg h6] at hcand
    obtain ⟨rfl, hstore⟩ := step_writes C hwr ht hi hv
    have key : ceq (cdec u.cand) (u.ovr.merge (cdec (u.store.read 1))) = true := by
      have hcur : ceq (cdec (u.store.read 1)) (cdec u.cur) = true := R hbetween C.binding
      rw [hcand]
      exact ceq_trans (ceq_cdec_cenc _) (ceq_merge _ (ceq_symm hcur))
    exact ⟨hstore ▸ key, key⟩

end Sys2Proof.Machine
end

section
/-! PROOFS. Parts of a word; the record packing and the presence mask, read back: O18, O19. -/

namespace Sys2Proof

/-! ### Parts of a word -/

/-- A part of a part of a word is a part of the word. -/
theorem extractLsb'_of_part {n j l k m : Nat} (w : BitVec n) (h : k + m ≤ l) :
    (w.extractLsb' j l).extractLsb' k m = w.extractLsb' (j + k) m := by
  apply BitVec.eq_of_getLsbD_eq
  intro i hi
  have hl : k + i < l := by omega
  simp [hi, hl, Nat.add_assoc]

/-- A part of a field that stands at the low end of a word is a part of the field's pattern. -/
theorem extractLsb'_field_low {w n k m : Nat} (b : BitVec w) (h : k + m ≤ w) (hw : w ≤ n) :
    (field n 0 b).extractLsb' k m = b.extractLsb' k m := by
  apply BitVec.eq_of_getLsbD_eq
  intro i hi
  have hn : k + i < n := by omega
  simp [hi, hn]

/-- A part of one bit. -/
theorem extractLsb'_one {n : Nat} (w : BitVec n) (k : Nat) : w.extractLsb' k 1 = BitVec.ofBool (w.getLsbD k) := by
  apply BitVec.eq_of_getLsbD_eq
  intro i hi
  obtain rfl : i = 0 := by omega
  simp

/-! ### The record packing (30_encoding.md R65) -/

theorem unpackRecord_packRecord (c : Configuration) : unpackRecord (packRecord c) = some c := by
  rw [unpackRecord, packRecord_mode, packRecord_conv, packRecord_avg, packRecord_therm, packRecord_pol,
    packRecord_dr, packRecord_highAlertFlag, packRecord_lowAlertFlag, packRecord_dataReadyFlag,
    packRecord_eepromBusyFlag]
  simp

theorem packRecord_and_low (c : Configuration) : packRecord c &&& 0x0003#16 = 0#16 := by
  apply BitVec.eq_of_getLsbD_eq
  intro i hi
  simp only [packRecord, BitVec.getLsbD_and, BitVec.getLsbD_or, getLsbD_field]
  interval_cases i <;> simp

theorem unpackRecord_eq_none {w : BitVec 16} : unpackRecord w = none ↔ w.extractLsb' 10 2 = 0b10#2 := by
  rw [← Mode.ofBits_eq_none, unpackRecord]
  cases Mode.ofBits? (w.extractLsb' 10 2) with
  | none => simp
  | some m => simp

theorem packRecord_of_unpackRecord {w : BitVec 16} {c : Configuration} (h : unpackRecord w = some c) :
    packRecord c = w &&& 0xFFFC#16 := by
  unfold unpackRecord at h
  cases hm : Mode.ofBits? (w.extractLsb' 10 2) with
  | none => simp [hm] at h
  | some m =>
    rw [hm] at h
    cases h
    apply BitVec.eq_of_getLsbD_eq
    intro i hi
    simp only [packRecord, Mode.ofBits_eq_some.1 hm, CycleTime.bits_ofBits, Averages.bits_ofBits,
      ThermalAlert.bits_ofBits, Polarity.bits_ofBits, DataReadySelect.bits_ofBits, BitVec.getLsbD_and,
      BitVec.getLsbD_or, getLsbD_field, BitVec.getLsbD_extractLsb']
    interval_cases i <;> simp

/-- The record a word spells is the one whose packing is the word with its low bits cleared. -/
theorem unpackRecord_eq_some {w : BitVec 16} {c : Configuration} :
    unpackRecord w = some c ↔ packRecord c = w &&& 0xFFFC#16 := by
  constructor
  · exact packRecord_of_unpackRecord
  · intro h
    have hmode : c.mode.bits = w.extractLsb' 10 2 := by
      have hmask : (0xFFFC#16).extractLsb' 10 2 = BitVec.allOnes 2 := by decide
      rw [← packRecord_mode, h, BitVec.extractLsb'_and, hmask, BitVec.and_allOnes]
    cases hu : unpackRecord w with
    | none => exact absurd (hmode.trans (unpackRecord_eq_none.1 hu)) (Mode.bits_ne_alias _)
    | some c' =>
      have hpack : packRecord c' = packRecord c := (packRecord_of_unpackRecord hu).trans h.symm
      rw [← unpackRecord_packRecord c', hpack, unpackRecord_packRecord]

/-- Settles O19: packing and unpacking are inverse, and only the mode code `0b10` has no record. -/
theorem recordPackingIsBijection : Obligations.RecordPackingIsBijection :=
  ⟨fun c => ⟨unpackRecord_packRecord c, packRecord_and_low c⟩, fun _ _ => packRecord_of_unpackRecord,
    fun _ => unpackRecord_eq_none⟩

/-! ### The presence mask (30_encoding.md R64) -/

/-- The pattern of an override is its value bits when its presence bit is 1. -/
theorem map_bits_present {α : Type} {w : Nat} {bits : α → BitVec w} {ofBits : BitVec w → α}
    (h : ∀ b, bits (ofBits b) = b) (p : Bool) (b : BitVec w) :
    (present p (ofBits b)).map bits = if p then some b else none := by
  cases p with
  | false => rfl
  | true => simp [present, h]

theorem overridesOf_eq_none {p : BitVec 6} {v : BitVec 10} :
    overridesOf p v = none ↔ p.getLsbD 5 = true ∧ v.extractLsb' 8 2 = 0b10#2 := by
  rw [← Mode.ofBits_eq_none]
  unfold overridesOf
  cases p.getLsbD 5 with
  | false => simp
  | true => cases Mode.ofBits? (v.extractLsb' 8 2) <;> simp

/-- What a mask and a value field spell: the mode's pattern stands in its positions, and every other override is
read whatever stands there. -/
theorem overridesOf_eq_some {p : BitVec 6} {v : BitVec 10} {o : Overrides} (h : overridesOf p v = some o) :
    o.mode.map Mode.bits = (if p.getLsbD 5 then some (v.extractLsb' 8 2) else none) ∧
    o.conv = present (p.getLsbD 4) (CycleTime.ofBits (v.extractLsb' 5 3)) ∧
    o.avg = present (p.getLsbD 3) (Averages.ofBits (v.extractLsb' 3 2)) ∧
    o.therm = present (p.getLsbD 2) (ThermalAlert.ofBits (v.extractLsb' 2 1)) ∧
    o.pol = present (p.getLsbD 1) (Polarity.ofBits (v.extractLsb' 1 1)) ∧
    o.dr = present (p.getLsbD 0) (DataReadySelect.ofBits (v.extractLsb' 0 1)) := by
  unfold overridesOf at h
  cases hp : p.getLsbD 5 with
  | false => simp only [hp] at h; cases h; simp
  | true =>
    cases hm : Mode.ofBits? (v.extractLsb' 8 2) with
    | none => simp [hp, hm] at h
    | some m => simp only [hp, hm] at h; cases h; simp [Mode.ofBits_eq_some.1 hm]

/-- Settles O18: each override is read from its presence bit and its value bits, and only a present mode can fail. -/
theorem overridesFollowPresenceMask : Obligations.OverridesFollowPresenceMask := by
  intro p v
  refine ⟨overridesOf_eq_none, fun o h => ?_⟩
  obtain ⟨hmode, hconv, havg, htherm, hpol, hdr⟩ := overridesOf_eq_some h
  rw [hconv, havg, htherm, hpol, hdr]
  exact ⟨hmode, map_bits_present CycleTime.bits_ofBits _ _, map_bits_present Averages.bits_ofBits _ _,
    map_bits_present ThermalAlert.bits_ofBits _ _, map_bits_present Polarity.bits_ofBits _ _,
    map_bits_present DataReadySelect.bits_ofBits _ _⟩

end Sys2Proof
end

section
/-! PROOFS. The decoder, an equation per operation select, and the words it refuses: O16, O17, O20 to O23. -/

namespace Sys2Proof

/-! ### The decoder, an equation per case (30_encoding.md R62, R63) -/

theorem decode_tdec {w : CmdWord} (h : w.op = 0b000#3) : decode w = .ok (.tdec w.regIn) := by simp [decode, h]

theorem decode_tenc {w : CmdWord} (h : w.op = 0b001#3) : decode w = .ok (.tenc w.fIn) := by simp [decode, h]

theorem decode_cdec {w : CmdWord} (h : w.op = 0b010#3) : decode w = .ok (.cdec w.regIn) := by simp [decode, h]

theorem decode_cenc {w : CmdWord} (h : w.op = 0b011#3) {c : Configuration} (hc : unpackRecord w.recIn = some c) :
    decode w = .ok (.cenc c) := by simp [decode, h, hc]

theorem decode_cmrg {w : CmdWord} (h : w.op = 0b100#3) {o : Overrides}
    (ho : overridesOf w.ovrPresent w.ovrValue = some o) : decode w = .ok (.cmrg w.devaddr o) := by simp [decode, h, ho]

theorem decode_ceq {w : CmdWord} (h : w.op = 0b101#3) {a b : Configuration}
    (ha : unpackRecord w.recInHigh = some a) (hb : unpackRecord w.recIn2 = some b) : decode w = .ok (.ceq a b) := by
  simp [decode, h, ha, hb]

theorem decode_cenc_reserved {w : CmdWord} (h : w.op = 0b011#3) (hc : unpackRecord w.recIn = none) :
    decode w = .error .reservedRecord := by simp [decode, h, hc]

theorem decode_cmrg_reserved {w : CmdWord} (h : w.op = 0b100#3) (ho : overridesOf w.ovrPresent w.ovrValue = none) :
    decode w = .error .reservedModeOverride := by simp [decode, h, ho]

theorem decode_ceq_reserved {w : CmdWord} (h : w.op = 0b101#3)
    (hr : unpackRecord w.recInHigh = none ∨ unpackRecord w.recIn2 = none) : decode w = .error .reservedRecord := by
  obtain ha | hb := hr
  · simp [decode, h, ha]
  · cases ha : unpackRecord w.recInHigh <;> simp [decode, h, ha, hb]

theorem decode_unassigned {w : CmdWord} (h : w.op = 0b110#3 ∨ w.op = 0b111#3) : decode w = .error .reservedOp := by
  obtain h | h := h <;> simp [decode, h]

/-- Settles O17: each case of the decoder, a record word read up to its low bits. -/
theorem commandFormats : Obligations.CommandFormats := fun _ =>
  ⟨decode_tdec, decode_tenc, decode_cdec, fun _ h hc => decode_cenc h (unpackRecord_eq_some.2 hc),
    fun _ h ho => decode_cmrg h ho,
    fun _ _ h ha hb => decode_ceq h (unpackRecord_eq_some.2 ha) (unpackRecord_eq_some.2 hb)⟩

/-- Settles O22: the five words, decoded. -/
theorem writtenOutWordsDecode : Obligations.WrittenOutWordsDecode := by
  unfold Obligations.WrittenOutWordsDecode; decide

/-! ### Decoding an encoded operation -/

/-- Settles O16: the word of an operation has its op code, and its operand fields read back. -/
theorem decodeEncodeAgree : Obligations.DecodeEncodeAgree := by
  intro i
  have hop : (encode i).op = i.opCode := Laws.encode_op i
  cases i with
  | tdec r =>
    have hr : (encode (.tdec r)).regIn = r := by
      simp [CmdWord.regIn, Laws.encode_operand, Instr.operand]
    rw [decode_tdec hop, hr]
  | tenc f =>
    have hf : (encode (.tenc f)).fIn = f := by
      simp [CmdWord.fIn, Laws.encode_operand, Instr.operand]
    rw [decode_tenc hop, hf]
  | cdec r =>
    have hr : (encode (.cdec r)).regIn = r := by
      simp [CmdWord.regIn, Laws.encode_operand, Instr.operand]
    rw [decode_cdec hop, hr]
  | cenc c =>
    have hc : (encode (.cenc c)).recIn = packRecord c := by
      simp [CmdWord.recIn, Laws.encode_operand, Instr.operand]
    exact decode_cenc hop (hc ▸ unpackRecord_packRecord c)
  | cmrg d o => exact decode_encode_cmrg d o
  | ceq a b =>
    have ha : (encode (.ceq a b)).recInHigh = packRecord a := by
      simp [CmdWord.recInHigh, Laws.encode_operand, Instr.operand, BitVec.extractLsb'_or]
    have hb : (encode (.ceq a b)).recIn2 = packRecord b := by
      simp [CmdWord.recIn2, Laws.encode_operand, Instr.operand, BitVec.extractLsb'_or]
    exact decode_ceq hop (ha ▸ unpackRecord_packRecord a) (hb ▸ unpackRecord_packRecord b)

/-! ### The words that spell no operation (30_encoding.md R67) -/

/-- The rows of R67: an unassigned op code, a record or a present mode override with the code `0b10`. -/
def CmdWord.Reserved (w : CmdWord) : Prop :=
  w.extractLsb' 32 3 = 0b110#3 ∨ w.extractLsb' 32 3 = 0b111#3 ∨
  (w.extractLsb' 32 3 = 0b011#3 ∧ w.extractLsb' 10 2 = 0b10#2) ∨
  (w.extractLsb' 32 3 = 0b101#3 ∧ (w.extractLsb' 26 2 = 0b10#2 ∨ w.extractLsb' 10 2 = 0b10#2)) ∨
  (w.extractLsb' 32 3 = 0b100#3 ∧ w.getLsbD 21 = true ∧ w.extractLsb' 10 2 = 0b10#2)

/-- A record in the low half of a word has its mode code at bits `[11:10]`. -/
theorem unpackRecord_recIn {w : CmdWord} : unpackRecord w.recIn = none ↔ w.extractLsb' 10 2 = 0b10#2 := by
  rw [unpackRecord_eq_none, CmdWord.recIn, extractLsb'_of_part _ (by omega)]

/-- A record in the high half of an operand has its mode code at bits `[27:26]`. -/
theorem unpackRecord_recInHigh {w : CmdWord} : unpackRecord w.recInHigh = none ↔ w.extractLsb' 26 2 = 0b10#2 := by
  rw [unpackRecord_eq_none, CmdWord.recInHigh, extractLsb'_of_part _ (by omega)]

/-- The presence bit of the mode is bit 21, its value bits are `[11:10]`. -/
theorem overridesOf_ovrPresent {w : CmdWord} :
    overridesOf w.ovrPresent w.ovrValue = none ↔ w.getLsbD 21 = true ∧ w.extractLsb' 10 2 = 0b10#2 := by
  rw [overridesOf_eq_none, CmdWord.ovrPresent, CmdWord.ovrValue, extractLsb'_of_part _ (by omega),
    BitVec.getLsbD_extractLsb']
  simp

/-- The operation select has six assigned codes and two others. -/
theorem op_cases (b : BitVec 3) : b = 0b000#3 ∨ b = 0b001#3 ∨ b = 0b010#3 ∨ b = 0b011#3 ∨ b = 0b100#3 ∨
    b = 0b101#3 ∨ b = 0b110#3 ∨ b = 0b111#3 := by
  revert b; decide

theorem decode_error_iff_reserved (w : CmdWord) : (∃ e, decode w = .error e) ↔ w.Reserved := by
  have hop : w.extractLsb' 32 3 = w.op := rfl
  have hlow : w.recIn = w.recIn2 := rfl
  rw [CmdWord.Reserved, hop, ← unpackRecord_recInHigh, ← overridesOf_ovrPresent, ← unpackRecord_recIn]
  obtain h | h | h | h | h | h | h | h := op_cases w.op
  · simp [decode_tdec h, h]
  · simp [decode_tenc h, h]
  · simp [decode_cdec h, h]
  · cases hc : unpackRecord w.recIn with
    | none => simp [decode_cenc_reserved h hc, h]
    | some c => simp [decode_cenc h hc, h]
  · cases ho : overridesOf w.ovrPresent w.ovrValue with
    | none => simp [decode_cmrg_reserved h ho, h]
    | some o => simp [decode_cmrg h ho, h]
  · rw [hlow]
    cases ha : unpackRecord w.recInHigh with
    | none => simp [decode_ceq_reserved h (.inl ha), h]
    | some a =>
      cases hb : unpackRecord w.recIn2 with
      | none => simp [decode_ceq_reserved h (.inr hb), h]
      | some b => simp [decode_ceq h ha hb, h]
  · simp [decode_unassigned (.inl h), h]
  · simp [decode_unassigned (.inr h), h]

theorem decode_ok_iff_not_reserved (w : CmdWord) : (∃ i, decode w = .ok i) ↔ ¬ w.Reserved := by
  rw [← decode_error_iff_reserved]
  cases decode w with
  | ok i => simp
  | error e => simp

theorem admits_iff_not_reserved (w : CmdWord) : WellFormed.admits w = true ↔ ¬ w.Reserved := by
  have hbit : w.extractLsb' 21 1 = 1#1 ↔ w.getLsbD 21 = true := by
    rw [extractLsb'_one]
    cases w.getLsbD 21 <;> decide
  simp only [WellFormed.admits, WellFormed.opAssigned, WellFormed.cencRecord, WellFormed.ceqRecords,
    WellFormed.cmrgMode, CmdWord.Reserved, Bool.and_eq_true, bne_iff_ne, ne_eq, Bool.not_eq_true',
    ← Bool.not_eq_true, beq_iff_eq, Bool.or_eq_true, hbit, not_or, and_assoc]

/-- Settles O21: the check refuses the rows of R67, and so does the decoder. -/
theorem admittedWordsAreThoseDecoded : Obligations.AdmittedWordsAreThoseDecoded := fun w =>
  (admits_iff_not_reserved w).trans (decode_ok_iff_not_reserved w).symm

end Sys2Proof

namespace Sys2Proof.Machine

/-! ### The step of an idle block (30_encoding.md R60, R67) -/

theorem step_command_ready {s : State} {w : CmdWord} {rest : List Input} {i : Instr} (hr : s.ready = true)
    (hi : s.inputs = .command w :: rest) (hw : decode w = .ok i) : step s = exec i { s with inputs := rest } := by
  simp [step, fetch, hi, hr, hw]

theorem step_command_refused {s : State} {w : CmdWord} {rest : List Input} {e : DecodeError} (hr : s.ready = true)
    (hi : s.inputs = .command w :: rest) (hw : decode w = .error e) : step s = .refused (.reservedCommand e) := by
  simp [step, fetch, hi, hr, hw]

theorem step_pseudo_ready {s : State} {p : Pseudo} {rest : List Input} (hr : s.ready = true)
    (hi : s.inputs = .pseudo p :: rest) : step s = execPseudo p { s with inputs := rest } := by
  simp [step, fetch, hi, hr]

/-- Settles O23: an idle block takes up what is presented. -/
theorem stepRunsWhatIsPresented : Obligations.StepRunsWhatIsPresented :=
  ⟨fun s _ _ _ hp hf => step_command_ready ((State.ready_iff s).2 ⟨hp, hf⟩),
    fun s _ _ hp hf => step_pseudo_ready ((State.ready_iff s).2 ⟨hp, hf⟩)⟩

/-- Settles O20: the decoder fails on the rows of R67 alone, and the step of an idle block passes its reason on. -/
theorem reservedCommandsAreRefused : Obligations.ReservedCommandsAreRefused :=
  ⟨decode_error_iff_reserved, fun _ _ _ s hp hf => step_command_refused ((State.ready_iff s).2 ⟨hp, hf⟩)⟩

end Sys2Proof.Machine
end

section
/-! PROOFS. The result word and the output ports: O43. -/

namespace Sys2Proof.Machine

/-- The status stands in `RES[33:32]` (30_encoding.md R66). -/
theorem res_status (s : State) : s.res.extractLsb' 32 2 = s.statusPort := by
  simp [State.res, BitVec.extractLsb'_or]

/-- The value stands in `RES[31:0]` (30_encoding.md R66). -/
theorem res_value {s : State} {r : Result} (h : s.result = some r) {k n : Nat} (hk : k + n ≤ 32) :
    s.res.extractLsb' k n = (r.value (s.freePort .resValue)).extractLsb' k n := by
  simp [State.res, h, BitVec.extractLsb'_or, hk, extractLsb'_field_low]

/-- A value of 16 bits stands in `RES[15:0]`, zeros above it (30_encoding.md R66). -/
theorem res_half {s : State} {r : Result} {v : BitVec 16} (h : s.result = some r)
    (hv : r.value (s.freePort .resValue) = field 32 0 v) :
    s.res.extractLsb' 16 16 = 0#16 ∧ s.res.extractLsb' 0 16 = v := by
  rw [res_value h (by omega), res_value h (by omega), hv]
  simp

theorem statusPort_of_result {s : State} {r : Result} (h : s.result = some r) : s.statusPort = r.status := by
  simp [State.statusPort, h]

/-- Settles O43: the status port and the word's two parts, read for each kind of result. -/
theorem resultWordLayout : Obligations.ResultWordLayout := by
  intro s
  have status {r : Result} (h : s.result = some r) :
      s.statusPort = r.status ∧ s.res.extractLsb' 32 2 = r.status :=
    ⟨statusPort_of_result h, (res_status s).trans (statusPort_of_result h)⟩
  refine ⟨fun f h => ?float, fun r h => ?reg, fun c h => ?cfg, fun b h => ?eq, status, status⟩
  all_goals obtain ⟨hport, hres⟩ := status h
  case float =>
    refine ⟨hport, by simp [State.fOut, h], hres, ?_⟩
    rw [res_value h (by omega)]
    simp [Result.value]
  case reg => exact ⟨hport, by simp [State.regOut, h], hres, res_half h rfl⟩
  case cfg => exact ⟨hport, by simp [State.recOut, h], hres, res_half h rfl⟩
  case eq =>
    have hbit : BitVec.ofBool (s.res.getLsbD 0) = BitVec.ofBool b := by
      rw [← extractLsb'_one, res_value h (by omega)]
      simp [Result.value]
    refine ⟨hport, by cases b <;> simp [State.eqOut, h], hres, ?_, ?_⟩
    · rw [res_value h (by omega)]
      simp [Result.value]
    · exact BitVec.ofBool_eq_iff_eq.1 hbit

end Sys2Proof.Machine
end

section
/-! PROOFS. Truncation toward zero: its sign, its order and its bounds (00_scope.md R8). -/

namespace Sys2Proof.Safety

theorem truncQ_of_nonneg {x : ℚ} (h : 0 ≤ x) : truncQ x = ⌊x⌋ := if_pos h

theorem truncQ_of_nonpos {x : ℚ} (h : x ≤ 0) : truncQ x = ⌈x⌉ := by
  obtain h | rfl := h.lt_or_eq
  · exact if_neg h.not_ge
  · simp [truncQ]

@[simp] theorem truncQ_neg (x : ℚ) : truncQ (-x) = -truncQ x := by
  obtain h | h := le_total 0 x
  · rw [truncQ_of_nonpos (neg_nonpos.2 h), truncQ_of_nonneg h, Int.ceil_neg]
  · rw [truncQ_of_nonneg (neg_nonneg.2 h), truncQ_of_nonpos h, Int.floor_neg]

/-- Truncation rounds the absolute value down. -/
theorem abs_truncQ (x : ℚ) : |truncQ x| = ⌊|x|⌋ := by
  have key {y : ℚ} (h : 0 ≤ y) : |truncQ y| = ⌊|y|⌋ := by
    rw [truncQ_of_nonneg h, abs_of_nonneg h, abs_of_nonneg (Int.floor_nonneg.2 h)]
  obtain h | h := le_total 0 x
  · exact key h
  · simpa using key (neg_nonneg.2 h)

theorem truncQ_lt_iff {x : ℚ} {n : ℤ} (hn : 0 < n) : truncQ x < n ↔ x < n := by
  obtain h | h := le_total 0 x
  · rw [truncQ_of_nonneg h, Int.floor_lt]
  · have hq : (0 : ℚ) < n := by exact_mod_cast hn
    rw [truncQ_of_nonpos h]
    exact iff_of_true ((Int.ceil_le.2 (by simpa using h)).trans_lt hn) (h.trans_lt hq)

theorem lt_truncQ_iff {x : ℚ} {n : ℤ} (hn : n < 0) : n < truncQ x ↔ (n : ℚ) < x := by
  simpa [neg_lt_neg_iff] using truncQ_lt_iff (x := -x) (neg_pos.2 hn)

/-- `trunc(x)` is a signed 16-bit integer exactly for these `x` (40_temperature_codec.md R84). -/
theorem truncQ_mem_int16_iff {x : ℚ} : (-32768 ≤ truncQ x ∧ truncQ x ≤ 32767) ↔ (-32769 < x ∧ x < 32768) := by
  have hlo := lt_truncQ_iff (x := x) (n := -32769) (by decide)
  have hhi := truncQ_lt_iff (x := x) (n := 32768) (by decide)
  push_cast at hlo hhi
  rw [← hlo, ← hhi]
  omega

theorem truncQ_mono : Monotone truncQ := by
  intro x y h
  obtain hx | hx := le_total 0 x
  · rw [truncQ_of_nonneg hx, truncQ_of_nonneg (hx.trans h)]
    exact Int.floor_mono h
  obtain hy | hy := le_total 0 y
  · rw [truncQ_of_nonpos hx, truncQ_of_nonneg hy]
    exact (Int.ceil_le.2 (by simpa using hx)).trans (Int.floor_nonneg.2 hy)
  · rw [truncQ_of_nonpos hx, truncQ_of_nonpos hy]
    exact Int.ceil_mono h

end Sys2Proof.Safety
end

section
/-! PROOFS. The exact value of a float and its truncation: the integers of the model against the rationals of the
statements. -/

namespace Sys2Proof.Machine

open Sys2Proof.Safety

/-! ### The fields of a pattern -/

theorem floatFrac_lt (f : FloatBits) : floatFrac f < 2 ^ 23 := BitVec.isLt _

theorem floatFinite_iff {f : FloatBits} : floatFinite f = true ↔ floatExp f ≠ 255 := by simp [floatFinite]

theorem floatSig_lt (f : FloatBits) : floatSig f < 2 ^ 24 := by
  have hf := floatFrac_lt f
  unfold floatSig
  split <;> omega

/-- Below the biased exponent 120 the truncated magnitude is zero, subnormals included (40_temperature_codec.md R87). -/
theorem magnitude128_eq_zero {f : FloatBits} (h : floatExp f < 120) : magnitude128 f = 0 := by
  have hs : floatScale f < 120 := by
    unfold floatScale
    split <;> omega
  rw [magnitude128, if_neg (by omega), Nat.shiftRight_eq_div_pow, Nat.div_eq_zero_iff]
  exact .inr ((floatSig_lt f).trans_le (Nat.pow_le_pow_right (by decide) (by omega)))

/-- From the biased exponent 120 on the magnitude is the significand, moved by R87's `k - 23`. -/
theorem magnitude128_of_exp {f : FloatBits} {k : Nat} (h : floatExp f = 120 + k) :
    magnitude128 f = if k ≤ 23 then (2 ^ 23 + floatFrac f) >>> (23 - k) else (2 ^ 23 + floatFrac f) <<< (k - 23) := by
  have hscale : floatScale f = 120 + k := by rw [floatScale, if_neg (by omega), h]
  have hsig : floatSig f = 2 ^ 23 + floatFrac f := by rw [floatSig, if_neg (by omega)]
  have hright : 143 - (120 + k) = 23 - k := by omega
  have hleft : 120 + k - 143 = k - 23 := by omega
  rw [magnitude128, hscale, hsig, hright, hleft]
  obtain hk | rfl | hk := lt_trichotomy k 23
  · rw [if_neg (by omega), if_pos hk.le]
  · simp
  · rw [if_pos (by omega), if_neg hk.not_ge]

@[simp] theorem floatSign_floatNeg (f : FloatBits) : floatSign (floatNeg f) = !floatSign f := by
  simp [floatSign, floatNeg]

@[simp] theorem floatExp_floatNeg (f : FloatBits) : floatExp (floatNeg f) = floatExp f := by
  simp [floatExp, floatNeg, BitVec.extractLsb'_xor]

@[simp] theorem floatFrac_floatNeg (f : FloatBits) : floatFrac (floatNeg f) = floatFrac f := by
  simp [floatFrac, floatNeg, BitVec.extractLsb'_xor]

@[simp] theorem floatScale_floatNeg (f : FloatBits) : floatScale (floatNeg f) = floatScale f := by simp [floatScale]

@[simp] theorem floatSig_floatNeg (f : FloatBits) : floatSig (floatNeg f) = floatSig f := by simp [floatSig]

@[simp] theorem floatValue_floatNeg (f : FloatBits) : floatValue (floatNeg f) = -floatValue f := by
  cases h : floatSign f <;> simp [floatValue, h]

/-! ### The truncated value -/

/-- `128 x`, as the sign and the magnitude that TENC truncates. -/
theorem mul_floatValue (f : FloatBits) :
    128 * floatValue f = (if floatSign f then -1 else 1) * ((floatSig f : ℚ) * 2 ^ ((floatScale f : ℤ) - 143)) := by
  have h : (2 : ℚ) ^ ((floatScale f : ℤ) - 143) = 128 * 2 ^ ((floatScale f : ℤ) - 150) := by
    rw [show (floatScale f : ℤ) - 143 = 7 + (floatScale f - 150) by ring, zpow_add₀ two_ne_zero]
    norm_num
  rw [floatValue, h]
  ring

theorem floor_magnitude (f : FloatBits) :
    ⌊(floatSig f : ℚ) * 2 ^ ((floatScale f : ℤ) - 143)⌋ = (magnitude128 f : ℤ) := by
  unfold magnitude128
  split
  · rw [show (floatScale f : ℤ) - 143 = (floatScale f - 143 : ℕ) by omega, zpow_natCast, Nat.shiftLeft_eq]
    exact_mod_cast Int.floor_natCast (R := ℚ) (floatSig f * 2 ^ (floatScale f - 143))
  · rw [show (floatScale f : ℤ) - 143 = -(143 - floatScale f : ℕ) by omega, zpow_neg, zpow_natCast,
      ← div_eq_mul_inv, Nat.shiftRight_eq_div_pow]
    exact_mod_cast Rat.floor_natCast_div_natCast (floatSig f) (2 ^ (143 - floatScale f))

/-- The model's integer is the truncation of `128 x` (40_temperature_codec.md R83). -/
theorem truncQ_floatValue (f : FloatBits) : truncQ (128 * floatValue f) = trunc128 f := by
  have hmag : truncQ ((floatSig f : ℚ) * 2 ^ ((floatScale f : ℤ) - 143)) = magnitude128 f := by
    rw [truncQ_of_nonneg (by positivity), floor_magnitude]
  rw [mul_floatValue, trunc128, ← hmag]
  cases floatSign f <;> simp

/-- In range is: finite, with a truncated value of 16 bits (40_temperature_codec.md R84). -/
theorem tempInRange_iff {f : FloatBits} :
    TempInRange f ↔ floatFinite f = true ∧ -32768 ≤ trunc128 f ∧ trunc128 f ≤ 32767 := by
  rw [TempInRange, ← truncQ_mem_int16_iff, truncQ_floatValue]

/-! ### TENC by cases (40_temperature_codec.md R83) -/

theorem inRange16_iff {q : Int} : inRange16 q = true ↔ -32768 ≤ q ∧ q ≤ 32767 := by simp [inRange16]

section
variable {oor : Int → Register} {special : FloatBits → Register} {f : FloatBits}

theorem tencWith_inRange (h : TempInRange f) : tencWith oor special f = tc16 (trunc128 f) := by
  obtain ⟨hf, hq⟩ := tempInRange_iff.1 h
  simp [tencWith, hf, inRange16_iff.2 hq]

theorem tencWith_outOfRange (hf : floatFinite f = true) (h : ¬(-32768 ≤ trunc128 f ∧ trunc128 f ≤ 32767)) :
    tencWith oor special f = oor (trunc128 f) := by
  have hq : inRange16 (trunc128 f) = false := by rw [← Bool.not_eq_true, inRange16_iff]; exact h
  simp [tencWith, hf, hq]

theorem tencWith_special (hf : floatFinite f = false) : tencWith oor special f = special f := by simp [tencWith, hf]

/-- For an input in range, the register holds the truncated value. -/
theorem sint16_tenc (h : TempInRange f) : sint16 (tenc f) = truncQ (128 * floatValue f) := by
  obtain ⟨-, hlo, hhi⟩ := tempInRange_iff.1 h
  rw [tenc, tencWith_inRange h, truncQ_floatValue, sint16, tc16,
    BitVec.toInt_ofInt_eq_self (by decide) (by omega) (by omega)]

end

end Sys2Proof.Machine
end

section
/-! PROOFS. TDEC: the fields of its float, the value it stands for, and that TENC gives the register back. -/

namespace Sys2Proof.Machine

open Sys2Proof.Safety

/-! ### A pattern put together of a sign, an exponent and a fraction (40_temperature_codec.md R82) -/

section
variable (s : BitVec 1) (e : BitVec 8) (m : BitVec 23)

theorem floatSign_fields : floatSign (field 32 31 s ||| field 32 23 e ||| field 32 0 m) = s.getLsbD 0 := by
  simp [floatSign]

theorem floatExp_fields : floatExp (field 32 31 s ||| field 32 23 e ||| field 32 0 m) = e.toNat := by
  simp [floatExp, BitVec.extractLsb'_or]

theorem floatFrac_fields : floatFrac (field 32 31 s ||| field 32 23 e ||| field 32 0 m) = m.toNat := by
  simp [floatFrac, BitVec.extractLsb'_or]

end

/-! ### The fields of a decoded register -/

theorem tdec_zero : tdec 0#16 = 0#32 := by decide

section
variable {r : Register} (h : r ≠ 0#16)
include h

theorem sint16_ne_zero : sint16 r ≠ 0 := fun h0 => h (BitVec.toInt_inj.1 (by simpa using h0))

/-- The position of the leading one of `|sint16(r)|` (40_temperature_codec.md R82). -/
theorem log2_natAbs_le : (sint16 r).natAbs.log2 ≤ 15 := by
  have hlo := BitVec.le_toInt r
  have hhi := BitVec.toInt_lt (x := r)
  have hm : (sint16 r).natAbs < 2 ^ 16 := by simp only [sint16]; omega
  have := (Nat.log2_lt (by simpa using sint16_ne_zero h)).2 hm
  omega

theorem tdec_of_ne_zero : tdec r =
    field 32 31 (BitVec.ofBool (decide (sint16 r < 0))) |||
      field 32 23 (BitVec.ofNat 8 ((sint16 r).natAbs.log2 + 120)) |||
      field 32 0 (BitVec.ofNat 23
        (((sint16 r).natAbs - 2 ^ (sint16 r).natAbs.log2) <<< (23 - (sint16 r).natAbs.log2))) :=
  if_neg (sint16_ne_zero h)

theorem floatSign_tdec : floatSign (tdec r) = decide (sint16 r < 0) := by
  simp [tdec_of_ne_zero h, floatSign_fields]

theorem floatExp_tdec : floatExp (tdec r) = (sint16 r).natAbs.log2 + 120 := by
  have hk := log2_natAbs_le h
  rw [tdec_of_ne_zero h, floatExp_fields, BitVec.toNat_ofNat, Nat.mod_eq_of_lt (by omega)]

theorem floatScale_tdec : floatScale (tdec r) = (sint16 r).natAbs.log2 + 120 := by
  simp [floatScale, floatExp_tdec h]

/-- With its hidden one, the significand is `|sint16(r)|` moved up to the 24th bit: no bit is lost. -/
theorem floatSig_tdec : floatSig (tdec r) = (sint16 r).natAbs * 2 ^ (23 - (sint16 r).natAbs.log2) := by
  have hk := log2_natAbs_le h
  have hm : (sint16 r).natAbs ≠ 0 := by simpa using sint16_ne_zero h
  set m := (sint16 r).natAbs with hmdef
  have hpow : 2 ^ m.log2 * 2 ^ (23 - m.log2) = 2 ^ 23 := by rw [← pow_add]; congr 1; omega
  have hle : 2 ^ m.log2 * 2 ^ (23 - m.log2) ≤ m * 2 ^ (23 - m.log2) := Nat.mul_le_mul_right _ (Nat.log2_self_le hm)
  have hlt : m * 2 ^ (23 - m.log2) < 2 * 2 ^ 23 := by
    rw [← hpow, ← mul_assoc, ← pow_succ']
    exact Nat.mul_lt_mul_of_pos_right Nat.lt_log2_self (by positivity)
  rw [floatSig, if_neg (by simp [floatExp_tdec h]), tdec_of_ne_zero h, floatFrac_fields, BitVec.toNat_ofNat,
    ← hmdef, Nat.shiftLeft_eq, Nat.sub_mul, Nat.mod_eq_of_lt (by omega)]
  omega

end

/-! ### The value and the round trip -/

theorem floatFinite_tdec (r : Register) : floatFinite (tdec r) = true := by
  obtain rfl | h := eq_or_ne r 0#16
  · decide
  · have hk := log2_natAbs_le h
    rw [floatFinite_iff, floatExp_tdec h]
    omega

/-- TDEC is exact: the float stands for `sint16(r)/128` (40_temperature_codec.md R81). -/
theorem floatValue_tdec (r : Register) : floatValue (tdec r) = (sint16 r : ℚ) / 128 := by
  obtain rfl | h := eq_or_ne r 0#16
  · have h0 : floatSig (0#32) = 0 := by decide
    simp [tdec_zero, floatValue, h0]
  have hk := log2_natAbs_le h
  have hpow : (2 : ℚ) ^ (23 - (sint16 r).natAbs.log2) * 2 ^ (((sint16 r).natAbs.log2 + 120 : ℕ) - 150 : ℤ) = 1 / 128 := by
    rw [← zpow_natCast, ← zpow_add₀ two_ne_zero,
      show ((23 - (sint16 r).natAbs.log2 : ℕ) : ℤ) + (((sint16 r).natAbs.log2 + 120 : ℕ) - 150) = -7 by omega]
    norm_num
  have habs : (if decide (sint16 r < 0) then (-1 : ℚ) else 1) * ((sint16 r).natAbs : ℚ) = sint16 r := by
    rw [Nat.cast_natAbs]
    obtain hn | hn := lt_or_ge (sint16 r) 0
    · simp [hn, abs_of_neg hn]
    · simp [hn.not_gt, abs_of_nonneg hn]
  calc floatValue (tdec r)
    _ = ((if decide (sint16 r < 0) then (-1 : ℚ) else 1) * ((sint16 r).natAbs : ℚ)) *
          (2 ^ (23 - (sint16 r).natAbs.log2) * 2 ^ (((sint16 r).natAbs.log2 + 120 : ℕ) - 150 : ℤ)) := by
        rw [floatValue, floatSign_tdec h, floatSig_tdec h, floatScale_tdec h]
        push_cast
        ring
    _ = (sint16 r : ℚ) / 128 := by rw [habs, hpow]; ring

theorem tdec_injective {r r' : Register} (h : tdec r = tdec r') : r = r' := by
  have hv : (sint16 r : ℚ) / 128 = (sint16 r' : ℚ) / 128 := by rw [← floatValue_tdec, ← floatValue_tdec, h]
  have hn : sint16 r = sint16 r' := by
    exact_mod_cast (div_left_inj' (by norm_num : (128 : ℚ) ≠ 0)).1 hv
  exact BitVec.toInt_inj.1 hn

theorem trunc128_tdec (r : Register) : trunc128 (tdec r) = sint16 r := by
  have hv : (128 : ℚ) * floatValue (tdec r) = (sint16 r : ℤ) := by rw [floatValue_tdec]; ring
  rw [← truncQ_floatValue, hv]
  simp [truncQ]

theorem tempInRange_tdec (r : Register) : TempInRange (tdec r) := by
  have hlo := BitVec.le_toInt r
  have hhi := BitVec.toInt_lt (x := r)
  refine tempInRange_iff.2 ⟨floatFinite_tdec r, ?_⟩
  rw [trunc128_tdec, sint16]
  omega

end Sys2Proof.Machine
end

section
/-! PROOFS. The Temperature Codec and what the codec operations leave unchanged: O1 to O7, O42. -/

namespace Sys2Proof.Machine

open Sys2Proof.Safety

/-- On an idle block an operation that completes at once changes its result and the model's counter. -/
theorem whenReady_complete {s : State} (hp : s.phase = .idle) (hf : s.facade = none) (r : Result) :
    s.whenReady (s.complete r) = .next { s with result := some r, epoch := s.epoch + 1 } := by
  rw [State.whenReady_ready _ _ ((State.ready_iff s).2 ⟨hp, hf⟩), State.complete_of_no_facade r s hf, ← hp]

/-- Settles O1: the float's fields give its value, and the value gives the register. -/
theorem tdecGivesExactValue : Obligations.TdecGivesExactValue := by
  refine ⟨fun r s hp hf => ⟨tdec r, whenReady_complete hp hf _, floatFinite_tdec r, floatValue_tdec r, ?_, ?_⟩,
    fun _ _ => tdec_injective, fun r => ⟨Laws.encode_op _, ?_⟩⟩
  · rintro rfl
    exact tdec_zero
  · intro h
    have hk := log2_natAbs_le h
    rw [floatExp_tdec h]
    omega
  · simp [Laws.encode_operand, Instr.operand]

/-- Settles O2: the three cases of TENC, each on the truncation of the exact value. -/
theorem tencTruncatesTowardZero : Obligations.TencTruncatesTowardZero := by
  refine ⟨fun f s hp hf => ⟨tenc f, whenReady_complete hp hf _, tencWith_special, ?_⟩, fun f => ⟨Laws.encode_op _, ?_⟩⟩
  · rw [mul_comm, truncQ_floatValue]
    exact ⟨fun hfin hlo hhi => tencWith_inRange (tempInRange_iff.2 ⟨hfin, hlo, hhi⟩), tencWith_outOfRange⟩
  · simp [Laws.encode_operand, Instr.operand]

/-- The floats from -256.0 down to the last one in range all truncate to -32768 (40_temperature_codec.md R84). -/
theorem trunc128_lower_edge {f : FloatBits} (hlo : 0xC3800000#32 ≤ f) (hhi : f ≤ 0xC38000FF#32) :
    floatExp f = 135 ∧ trunc128 f = -32768 := by
  rw [BitVec.le_def, BitVec.toNat_ofNat] at hlo hhi
  have hs : floatSign f = true := by
    rw [floatSign, BitVec.getLsbD, Nat.testBit_eq_decide_div_mod_eq]
    simp only [decide_eq_true_eq]
    omega
  have he : floatExp f = 135 := by
    rw [floatExp, BitVec.extractLsb'_toNat, Nat.shiftRight_eq_div_pow]
    omega
  have hf : floatFrac f < 256 := by
    rw [floatFrac, BitVec.extractLsb'_toNat, Nat.shiftRight_zero]
    omega
  have hm : magnitude128 f = 32768 := by
    rw [magnitude128_of_exp (k := 15) he, if_pos (by decide), Nat.shiftRight_eq_div_pow]
    omega
  refine ⟨he, ?_⟩
  rw [trunc128, hs, hm]
  rfl

/-- Settles O3: truncation meets the 16-bit bounds exactly in range; the boundary patterns by their truncated values. -/
theorem tencInRangeInputs : Obligations.TencInRangeInputs := by
  have edge : TempInRange 0x437FFFFF#32 := tempInRange_iff.2 (by decide)
  refine ⟨fun f => ?_, fun f h oor special => ?_, ⟨edge, ?_⟩, ?_, fun f hlo hhi => ?_, ?_⟩
  · rw [truncQ_floatValue, tempInRange_iff]
  · rw [truncQ_floatValue, tencWith_inRange h]
  · rw [tenc, tencWith_inRange edge]
    decide
  · rw [tempInRange_iff]
    decide
  · obtain ⟨he, hq⟩ := trunc128_lower_edge hlo hhi
    have hin : TempInRange f := tempInRange_iff.2 ⟨floatFinite_iff.2 (by omega), by omega, by omega⟩
    refine ⟨hin, ?_⟩
    rw [tenc, tencWith_inRange hin, hq]
    decide
  · rw [tempInRange_iff]
    decide

/-- Settles O4: by R87's ranges of the exponent. -/
theorem tencBitAlgorithmAgrees : Obligations.TencBitAlgorithmAgrees := by
  intro oor special f
  by_cases h255 : floatExp f = 255
  · simp [tencBits, tencWith, floatFinite, h255]
  have hfin : floatFinite f = true := floatFinite_iff.2 h255
  by_cases h120 : floatExp f < 120
  · have hq : trunc128 f = 0 := by simp [trunc128, magnitude128_eq_zero h120]
    rw [tencWith_inRange (tempInRange_iff.2 ⟨hfin, by omega, by omega⟩), hq]
    simp [tencBits, h255, h120]
  · obtain ⟨k, hk⟩ := Nat.exists_eq_add_of_le (not_lt.1 h120)
    rw [tencWith, if_pos hfin, trunc128, magnitude128_of_exp hk, tencBits, if_neg h255, if_neg h120, hk,
      Nat.add_sub_cancel_left]

/-- Settles O5: a decoded register is in range and truncates to its own integer. -/
theorem temperatureRegisterRoundTrip : Obligations.TemperatureRegisterRoundTrip := by
  intro oor special r
  rw [tencWith_inRange (tempInRange_tdec r), trunc128_tdec, tc16, sint16, BitVec.ofInt_toInt]

/-- Settles O6: the float that comes back is `trunc(128 x)/128`, and truncation rounds `|128 x|` down. -/
theorem temperatureFloatRoundTrip : Obligations.TemperatureFloatRoundTrip := by
  intro f h
  have hv : floatValue (tdec (tenc f)) = (truncQ (128 * floatValue f) : ℚ) / 128 := by
    rw [floatValue_tdec, sint16_tenc h]
  have habs : |floatValue (tdec (tenc f))| = (⌊128 * |floatValue f|⌋ : ℚ) / 128 := by
    rw [hv, abs_div, ← Int.cast_abs, abs_truncQ, abs_mul]
    norm_num
  have hlo := Int.floor_le (128 * |floatValue f|)
  have hhi := Int.lt_floor_add_one (128 * |floatValue f|)
  refine ⟨hv, ?_, ?_⟩ <;> rw [habs] <;> linarith

/-- Settles O7: truncation is monotone and odd, and the register holds the truncated value. -/
theorem tencMonotoneAndOdd : Obligations.TencMonotoneAndOdd := by
  refine ⟨fun f g hf hg h => ?_, fun f hf hn => ?_⟩
  · rw [sint16_tenc hf, sint16_tenc hg]
    exact truncQ_mono (by linarith)
  · rw [sint16_tenc hf, tenc, tencWith_inRange hn, ← truncQ_floatValue, floatValue_floatNeg, mul_neg, truncQ_neg]

/-- Settles O42: each codec operation completes at once, with a result that is no failure kind. -/
theorem codecOperationsTouchNothingElse : Obligations.CodecOperationsTouchNothingElse := by
  intro i s hp hf hi
  have key (r : Result) (hr : r.status = 0b00#2) :
      ∃ t, s.whenReady (s.complete r) = .next t ∧ t.statusPort = 0b00#2 ∧
        t = { s with result := t.result, epoch := t.epoch } ∧ ∀ a, t.store.read a = s.store.read a :=
    ⟨_, whenReady_complete hp hf r, hr, rfl, fun _ => rfl⟩
  cases i with
  | tdec r => exact key _ rfl
  | tenc f => exact key _ rfl
  | cdec r => exact key _ rfl
  | cenc c => exact key _ rfl
  | ceq a b => exact key _ rfl
  | cmrg d o => exact absurd rfl (hi d o)

end Sys2Proof.Machine
end

section
/-! PROOFS. The Configuration Codec: CDEC unpacks the folded register, CENC masks the packing: O8 to O15. -/

namespace Sys2Proof.Machine

/-! ### The alias fold (41_configuration_codec.md R91) -/

/-- The mode code's two bits in the register. -/
theorem modeField_eq_iff {r : Register} {b : BitVec 2} : r.extractLsb' 10 2 = b ↔ r[10] = b[0] ∧ r[11] = b[1] := by
  constructor
  · rintro rfl
    simp
  · rintro ⟨h10, h11⟩
    ext i hi
    interval_cases i <;> simp [h10, h11]

/-- The working copy of a register that holds the alias has its mode field cleared. -/
theorem foldAlias_of_alias {r : Register} (h : r.extractLsb' 10 2 = 0b10#2) : foldAlias r = r &&& 0xF3FF#16 := by
  obtain ⟨h10, h11⟩ := modeField_eq_iff.1 h
  have hm : r &&& maskMode = modeAlias := by
    ext i hi
    interval_cases i <;> simp [maskMode, modeAlias, h10, h11]
  rw [foldAlias, if_pos hm]
  rfl

theorem foldAlias_mode (r : Register) : (foldAlias r).extractLsb' 10 2 =
    if r.extractLsb' 10 2 = 0b10#2 then 0b00#2 else r.extractLsb' 10 2 := by
  split
  next h =>
    have hmask : (0xF3FF#16).extractLsb' 10 2 = 0#2 := by decide
    rw [foldAlias_of_alias h, BitVec.extractLsb'_and, hmask, BitVec.and_zero]
  next h => rw [foldAlias_of_ne h]

/-- No alias is left in the working copy. -/
theorem foldAlias_mode_ne (r : Register) : (foldAlias r).extractLsb' 10 2 ≠ 0b10#2 := by
  rw [foldAlias_mode]
  split
  · decide
  · assumption

/-- The fold touches bits [11:10] alone (41_configuration_codec.md R90). -/
theorem getLsbD_foldAlias (r : Register) {i : Nat} (hi : i < 10 ∨ 12 ≤ i) :
    (foldAlias r).getLsbD i = r.getLsbD i := by
  by_cases h : r.extractLsb' 10 2 = 0b10#2
  · rw [foldAlias_of_alias h]
    by_cases h16 : i < 16
    · interval_cases i <;> simp at hi ⊢
    · simp [BitVec.getLsbD_of_ge, not_lt.1 h16]
  · rw [foldAlias_of_ne h]

/-- A field below the mode is read from the working copy as from the register. -/
theorem extractLsb'_foldAlias (r : Register) {k n : Nat} (h : k + n ≤ 10) :
    (foldAlias r).extractLsb' k n = r.extractLsb' k n := by
  apply BitVec.eq_of_getLsbD_eq
  intro i hi
  simp [hi, getLsbD_foldAlias r (i := k + i) (.inl (by omega))]

/-! ### CDEC in record packing (41_configuration_codec.md R90, R97) -/

theorem ofBits_eq_modeOf {b : BitVec 2} (h : b ≠ 0b10#2) : Mode.ofBits? b = some (modeOf b) := by
  revert b; decide

/-- CDEC's record is the one the working copy spells. -/
theorem unpackRecord_foldAlias (r : Register) : unpackRecord (foldAlias r) = some (cdec r) := by
  simp (disch := omega) only [unpackRecord, ofBits_eq_modeOf (foldAlias_mode_ne r), getLsbD_foldAlias]
  rfl

theorem packRecord_cdec (r : Register) : packRecord (cdec r) = foldAlias r &&& 0xFFFC#16 :=
  packRecord_of_unpackRecord (unpackRecord_foldAlias r)

/-- The packing clears bits [1:0], and bit 11 where the register holds the alias. -/
theorem packRecord_cdec_eq_ite (r : Register) :
    packRecord (cdec r) = if r.extractLsb' 10 2 = 0b10#2 then r &&& 0xF7FC#16 else r &&& 0xFFFC#16 := by
  rw [packRecord_cdec]
  split
  next h =>
    obtain ⟨h10, -⟩ := modeField_eq_iff.1 h
    rw [foldAlias_of_alias h]
    ext i hi
    interval_cases i <;> simp [h10]
  next h => rw [foldAlias_of_ne h]

/-- The bit to clear is bit 11 where bit 10 is not set. -/
theorem packRecord_cdec_eq_mask (r : Register) : packRecord (cdec r) =
    (r &&& 0xFFFC#16) &&& ~~~((r &&& 0x0800#16) &&& ~~~((r &&& 0x0400#16) <<< 1)) := by
  rw [packRecord_cdec_eq_ite]
  ext i hi
  split
  next h =>
    obtain ⟨h10, h11⟩ := modeField_eq_iff.1 h
    interval_cases i <;> simp [h10, h11]
  next h =>
    have h10 : r[11] = true → r[10] = true := fun h11 => by simpa [modeField_eq_iff, h11] using h
    interval_cases i <;> simp +contextual [h10]

theorem packRecord_injective {a b : Configuration} (h : packRecord a = packRecord b) : a = b := by
  rw [← Option.some_inj, ← unpackRecord_packRecord, h, unpackRecord_packRecord]

/-- The record keeps no trace of the fold (41_configuration_codec.md R91). -/
theorem cdec_foldAlias (r : Register) : cdec (foldAlias r) = cdec r := by
  apply packRecord_injective
  rw [packRecord_cdec, packRecord_cdec, foldAlias_of_ne (foldAlias_mode_ne r)]

/-- Bits [1:0] play no part (41_configuration_codec.md R90). -/
theorem cdec_and_low (r : Register) : cdec (r &&& 0xFFFC#16) = cdec r := by
  have hmode : (r &&& 0xFFFC#16).extractLsb' 10 2 = r.extractLsb' 10 2 := by
    have hmask : (0xFFFC#16).extractLsb' 10 2 = BitVec.allOnes 2 := by decide
    rw [BitVec.extractLsb'_and, hmask, BitVec.and_allOnes]
  apply packRecord_injective
  rw [packRecord_cdec_eq_ite, packRecord_cdec_eq_ite, hmode]
  simp [BitVec.and_assoc]

theorem cdec_mode (r : Register) :
    (cdec r).mode.bits = if r.extractLsb' 10 2 = 0b10#2 then 0b00#2 else r.extractLsb' 10 2 := by
  rw [← foldAlias_mode]
  exact Mode.ofBits_eq_some.1 (ofBits_eq_modeOf (foldAlias_mode_ne r))

theorem cdec_mode_continuous {r : Register} (h : r.extractLsb' 10 2 = 0b10#2 ∨ r.extractLsb' 10 2 = 0b00#2) :
    (cdec r).mode = .continuous := by
  have hbits : (cdec r).mode.bits = 0b00#2 := by
    rw [cdec_mode]
    obtain h | h := h <;> simp [h]
  rw [← modeOf_bits (cdec r).mode, hbits]
  rfl

/-- Settles O8: the fields are read from the working copy, which differs from the register in the mode field alone. -/
theorem cdecDecodesEveryField : Obligations.CdecDecodesEveryField := by
  refine ⟨fun r s hp hf => ⟨cdec r, whenReady_complete hp hf _, rfl, rfl, rfl, rfl, cdec_mode r, ?conv, ?avg, ?therm,
    ?pol, ?dr, (cdec_and_low r).symm⟩, fun r => ⟨Laws.encode_op _, ?operand⟩⟩
  case operand => simp [Laws.encode_operand, Instr.operand]
  all_goals simp [cdec, extractLsb'_foldAlias]

/-- Settles O9: the fold clears the mode field, and no mode has the alias for its code. -/
theorem cdecFoldsTheModeAlias : Obligations.CdecFoldsTheModeAlias := by
  refine ⟨fun r h => ⟨cdec_mode_continuous (.inl h), ?fold⟩, fun r h => ⟨cdec_mode_continuous (.inr h), ?spell⟩,
    fun c => cenc_mode c ▸ Mode.bits_ne_alias _⟩
  case fold => rw [← cdec_foldAlias r, foldAlias_of_alias h]
  case spell =>
    have halias : (r ||| 0x0800#16).extractLsb' 10 2 = 0b10#2 := by
      rw [BitVec.extractLsb'_or, h]
      decide
    have hclear : (r ||| 0x0800#16) &&& 0xF3FF#16 = r := by
      obtain ⟨h10, h11⟩ := modeField_eq_iff.1 h
      ext i hi
      interval_cases i <;> simp [h10, h11]
    rw [← cdec_foldAlias, foldAlias_of_alias halias, hclear]

/-! ### CENC and CEQ (41_configuration_codec.md R93 to R98) -/

/-- Settles O10: each field's pattern in its place is the mask the rule lists for the variant. -/
theorem cencOrsFieldPatterns : Obligations.CencOrsFieldPatterns := by
  refine ⟨fun c s hp hf => (whenReady_complete hp hf (.reg (cenc c))).trans ?_, fun c => ⟨Laws.encode_op _, ?_⟩⟩
  · refine congrArg (fun w : Register => Host.Outcome.next { s with result := some (.reg w), epoch := s.epoch + 1 }) ?_
    unfold cenc
    congr 5
    · cases c.mode <;> rfl
    · cases c.conv <;> rfl
    · cases c.avg <;> rfl
    · cases c.therm <;> rfl
    · cases c.pol <;> rfl
    · cases c.dr <;> rfl
  · simp [Laws.encode_operand, Instr.operand]

/-- Settles O11: no field's pattern reaches the flag positions, and no flag is read. -/
theorem cencMasksStatusFlags : Obligations.CencMasksStatusFlags :=
  ⟨fun c => by simp [cenc, BitVec.extractLsb'_or], fun _ _ _ _ _ => rfl, by decide⟩

/-- Settles O13: CEQ is the pairwise equality of the fields, which the images determine. -/
theorem ceqComparesWritableFields : Obligations.CeqComparesWritableFields := by
  refine ⟨fun a b s hp hf => ⟨ceq a b, whenReady_complete hp hf _, ceq_iff, cenc_eq_iff.symm⟩,
    fun a b => ⟨Laws.encode_op _, ?high, ?low⟩⟩
  all_goals simp [Laws.encode_operand, Instr.operand, BitVec.extractLsb'_or]

/-- Settles O15: the fields are read back from an image. -/
theorem cencInjectiveOnWritableFields : Obligations.CencInjectiveOnWritableFields := fun _ _ => cenc_eq_iff

/-! ### The round trips (41_configuration_codec.md R97) -/

theorem cenc_eq_packRecord_and (c : Configuration) : cenc c = packRecord c &&& 0x0FFC#16 := by
  ext i hi
  simp only [cenc, packRecord, BitVec.getElem_and, BitVec.getElem_or, getElem_field]
  interval_cases i <;> simp

theorem cenc_cdec (r : Register) :
    cenc (cdec r) = if r.extractLsb' 10 2 = 0b10#2 then r &&& 0x03FC#16 else r &&& 0x0FFC#16 := by
  rw [cenc_eq_packRecord_and, packRecord_cdec, BitVec.and_assoc]
  split
  next h => rw [foldAlias_of_alias h, BitVec.and_assoc]; rfl
  next h => rw [foldAlias_of_ne h]; rfl

theorem cenc_cdec_cenc (c : Configuration) : cenc (cdec (cenc c)) = cenc c := cenc_eq_iff.2 (ceq_cdec_cenc c)

/-- A register whose flag and reserved positions are zero is its writable part. -/
theorem and_writable_of_canonical {r : Register} (h : r &&& 0xF003#16 = 0#16) : r &&& 0x0FFC#16 = r := by
  calc r &&& 0x0FFC#16 = (r &&& 0x0FFC#16) ||| (r &&& 0xF003#16) := by rw [h, BitVec.or_zero]
    _ = r &&& (0x0FFC#16 ||| 0xF003#16) := BitVec.and_or_distrib_left.symm
    _ = r := BitVec.and_allOnes

/-- The registers that come back unchanged are the canonical ones. -/
theorem cenc_cdec_eq_self_iff {r : Register} :
    cenc (cdec r) = r ↔ (r &&& 0xF003#16 = 0#16 ∧ r.extractLsb' 10 2 ≠ 0b10#2) := by
  constructor
  · intro h
    rw [← h]
    exact ⟨cenc_and_fixed _, cenc_mode (cdec r) ▸ Mode.bits_ne_alias _⟩
  · rintro ⟨hfixed, hmode⟩
    rw [cenc_cdec, if_neg hmode, and_writable_of_canonical hfixed]

theorem cdec_cenc (c : Configuration) : cdec (cenc c) =
    { c with highAlertFlag := false, lowAlertFlag := false, dataReadyFlag := false, eepromBusyFlag := false } := by
  have hf : foldAlias (cenc c) = cenc c := foldAlias_of_ne (by simp [Mode.bits_ne_alias])
  have hflags : (cenc c)[15] = false ∧ (cenc c)[14] = false ∧ (cenc c)[13] = false ∧ (cenc c)[12] = false := by
    simp [cenc]
  simp [cdec, hf, modeOf_bits, highAlertOf, lowAlertOf, dataReadyOf, eepromBusyOf, hflags]

/-- Settles O14: the mask forms, and the round trips they give. -/
theorem configurationRoundTrips : Obligations.ConfigurationRoundTrips :=
  ⟨packRecord_cdec_eq_mask, packRecord_cdec_eq_ite, cenc_eq_packRecord_and, cenc_cdec,
    fun _ => cenc_cdec_eq_self_iff, cdec_cenc, ceq_cdec_cenc, cenc_cdec_cenc⟩

/-! ### The images are the canonical registers (41_configuration_codec.md R95) -/

theorem range_cenc : Set.range cenc = {r | r &&& 0xF003#16 = 0#16 ∧ r.extractLsb' 10 2 ≠ 0b10#2} := by
  ext r
  constructor
  · rintro ⟨c, rfl⟩
    exact cenc_cdec_eq_self_iff.1 (cenc_cdec_cenc c)
  · exact fun h => ⟨cdec r, cenc_cdec_eq_self_iff.2 h⟩

/-- The register with a mode code and the other eight writable bits in their places. -/
def imageOf (p : BitVec 2 × BitVec 8) : Register := field 16 10 p.1 ||| field 16 2 p.2

@[simp] theorem imageOf_mode (p : BitVec 2 × BitVec 8) : (imageOf p).extractLsb' 10 2 = p.1 := by
  simp [imageOf, BitVec.extractLsb'_or]

@[simp] theorem imageOf_rest (p : BitVec 2 × BitVec 8) : (imageOf p).extractLsb' 2 8 = p.2 := by
  simp [imageOf, BitVec.extractLsb'_or]

theorem imageOf_injective : Function.Injective imageOf := fun p q h =>
  Prod.ext (by rw [← imageOf_mode p, h, imageOf_mode]) (by rw [← imageOf_rest p, h, imageOf_rest])

theorem imageOf_and_fixed (p : BitVec 2 × BitVec 8) : imageOf p &&& 0xF003#16 = 0#16 := by
  ext i hi
  simp only [imageOf, BitVec.getElem_and, BitVec.getElem_or, getElem_field]
  interval_cases i <;> simp

theorem imageOf_extract (r : Register) : imageOf (r.extractLsb' 10 2, r.extractLsb' 2 8) = r &&& 0x0FFC#16 := by
  ext i hi
  simp only [imageOf, BitVec.getElem_and, BitVec.getElem_or, getElem_field]
  interval_cases i <;> simp

/-- An image is a mode code other than the alias and eight free bits. -/
theorem range_cenc_eq_image : Set.range cenc = imageOf '' ({0b10#2}ᶜ ×ˢ Set.univ) := by
  rw [range_cenc]
  ext r
  constructor
  · rintro ⟨hfixed, hmode⟩
    exact ⟨(r.extractLsb' 10 2, r.extractLsb' 2 8), ⟨hmode, trivial⟩,
      (imageOf_extract r).trans (and_writable_of_canonical hfixed)⟩
  · rintro ⟨p, ⟨hmode, -⟩, rfl⟩
    exact ⟨imageOf_and_fixed p, by rwa [imageOf_mode]⟩

/-- Settles O12: three mode codes and eight free bits give 3 * 256 images. -/
theorem cencImageIsCanonical : Obligations.CencImageIsCanonical := by
  refine ⟨fun c => ⟨?low, cenc_and_fixed c, cenc_mode c ▸ Mode.bits_ne_alias _⟩, ?count⟩
  case low => simp [cenc, BitVec.extractLsb'_or]
  case count =>
    have hcard (n : Nat) : Nat.card (BitVec n) = 2 ^ n :=
      (Nat.card_congr BitVec.equivFin.toEquiv).trans (Nat.card_fin _)
    rw [range_cenc_eq_image, Set.ncard_image_of_injective _ imageOf_injective, Set.ncard_prod, Set.ncard_univ,
      Set.ncard_compl, Set.ncard_singleton, hcard, hcard]
    rfl

end Sys2Proof.Machine
end

section
/-! PROOFS. The machine's invariant: O54. -/

namespace Sys2Proof.Machine

/-- Settles O54: the coherent states are those of the invariant, and a step from one gives one. -/
theorem stepKeepsInvariant : Obligations.StepKeepsInvariant := fun _ _ I h =>
  (coherent_iff.1 (coherent_step (coherent_iff.2 ⟨I, rfl⟩) h)).1

end Sys2Proof.Machine
end

section
/-! PROOFS. The merge engine on the external transport, an exact next state per row of R117: O25 to O27, O29 to O31. -/

namespace Sys2Proof.Machine

/-- An operation that has ended stays ended. -/
theorem runEngine_complete (r : Result) (s : State) : runEngine (s.complete r) = s.complete r := by
  rw [runEngine_of_not_reading (by simp), engine_idle (by simp)]

/-- While the transport has no answer the engine waits. -/
theorem runEngine_waits {s : State} (h : s.respond = none) : runEngine s = s := by
  rw [runEngine, engine_waits h, engine_waits h]

/-- A call is unanswered while its time has not passed, or while the external transport lists nothing. -/
theorem respond_unanswered {s : State} {q : Request} {n : Nat} (hc : s.call = some { req := q, left := n })
    (h : 1 ≤ n ∨ (s.binding = .external ∧ s.answers = [])) : s.respond = none := by
  obtain h | ⟨hb, ha⟩ := h
  · obtain ⟨k, rfl⟩ := Nat.exists_eq_add_of_le' h
    exact State.respond_waiting hc
  · exact State.respond_silent hb ha

/-! ### A CMRG of the requester whose call is answered in this step -/

/-- The external transport answers the outstanding call `q` with `a` in this step, and `rest` is still to come; no
Facade operation is in flight. -/
structure AnswersNow (q : Request) (a : Answer) (rest : List Answer) (s : State) : Prop where
  facade : s.facade = none
  binding : s.binding = .external
  answers : s.answers = a :: rest
  call : s.call = some { req := q, left := 0 }

section
variable {q : Request} {a : Answer} {rest : List Answer} {r : Register} {s : State}

theorem AnswersNow.respond (A : AnswersNow q a rest s) :
    s.respond = some (a, { s with answers := rest, call := none,
                                  history := s.history ++ [{ req := q, outcome := a }] }) :=
  State.respond_external A.call A.binding A.answers

/-- A call issued with no delay. -/
theorem answersNow_issue (hf : s.facade = none) (hb : s.binding = .external) (ha : s.answers = a :: rest)
    (hl : s.latency.headD 0 = 0) : AnswersNow q a rest (s.issue q) :=
  ⟨hf, hb, ha, by rw [State.issue_call, hl]⟩

/-- The write has answered: its result is the CMRG's (42_merge_engine.md R111). -/
theorem AnswersNow.write (A : AnswersNow q a rest s) (hp : s.phase = .wrWait) :
    runEngine s = { s with
      phase := .idle, result := some (writeResult a), answers := rest, call := none,
      history := s.history ++ [{ req := q, outcome := a }], epoch := s.epoch + 1 } := by
  rw [runEngine_write hp, engine_write hp A.respond, writeAnswered_eq_complete]
  exact State.complete_of_no_facade _ _ A.facade

/-- The read has failed (42_merge_engine.md R108). -/
theorem AnswersNow.read_fails (A : AnswersNow q .fail rest s) (hp : s.phase = .rdWait) :
    runEngine s = { s with
      phase := .idle, result := some .transportFailure, answers := rest, call := none,
      history := s.history ++ [{ req := q, outcome := .fail }], epoch := s.epoch + 1 } := by
  rw [runEngine_read hp A.respond, readAnswered, runEngine_complete]
  exact State.complete_of_no_facade _ _ A.facade

/-- The merge with what the read returned changes nothing (42_merge_engine.md R110). -/
theorem AnswersNow.read_unchanged (A : AnswersNow q (.ok r) rest s) (hp : s.phase = .rdWait)
    (he : cenc (s.ovr.merge (cdec r)) = cenc (cdec r)) :
    runEngine s = { s with
      phase := .idle, cur := r, cand := cenc (s.ovr.merge (cdec r)),
      result := some (.reg (cenc (s.ovr.merge (cdec r)))), answers := rest, call := none,
      history := s.history ++ [{ req := q, outcome := .ok r }], epoch := s.epoch + 1 } := by
  rw [runEngine_read hp A.respond, readAnswered_unchanged (by exact he), runEngine_complete]
  exact State.complete_of_no_facade _ _ A.facade

/-- The merge with what the read returned changes something: the engine goes on from the write (42_merge_engine.md
R111). -/
theorem AnswersNow.read_changed (A : AnswersNow q (.ok r) rest s) (hp : s.phase = .rdWait)
    (he : cenc (s.ovr.merge (cdec r)) ≠ cenc (cdec r)) :
    runEngine s = runEngine (State.issue (.wr s.latched addrCfg (cenc (s.ovr.merge (cdec r)))) { s with
      phase := .wrWait, cur := r, cand := cenc (s.ovr.merge (cdec r)), answers := rest, call := none,
      history := s.history ++ [{ req := q, outcome := .ok r }] }) := by
  rw [runEngine_read hp A.respond, readAnswered_changed (by exact he)]

/-- The write is not answered in the same step. -/
theorem AnswersNow.update_waits {k : Nat} (A : AnswersNow q (.ok r) rest s) (hp : s.phase = .rdWait)
    (he : cenc (s.ovr.merge (cdec r)) ≠ cenc (cdec r)) (hl : s.latency.headD 0 = k) (hk : 1 ≤ k ∨ rest = []) :
    runEngine s = { s with
      phase := .wrWait, cur := r, cand := cenc (s.ovr.merge (cdec r)), answers := rest, latency := s.latency.tail,
      call := some { req := .wr s.latched addrCfg (cenc (s.ovr.merge (cdec r))), left := k },
      history := s.history ++ [{ req := q, outcome := .ok r }] } := by
  subst hl
  rw [A.read_changed hp he]
  exact runEngine_waits (respond_unanswered rfl (hk.imp_right fun h => ⟨A.binding, h⟩))

/-- The write is answered in the same step. -/
theorem AnswersNow.update {b : Answer} (A : AnswersNow q (.ok r) (b :: rest) s) (hp : s.phase = .rdWait)
    (he : cenc (s.ovr.merge (cdec r)) ≠ cenc (cdec r)) (hl : s.latency.headD 0 = 0) :
    runEngine s = { s with
      phase := .idle, cur := r, cand := cenc (s.ovr.merge (cdec r)), result := some (writeResult b),
      answers := rest, latency := s.latency.tail, call := none,
      history := s.history ++ [{ req := q, outcome := .ok r },
        { req := .wr s.latched addrCfg (cenc (s.ovr.merge (cdec r))), outcome := b }],
      epoch := s.epoch + 1 } := by
  rw [A.read_changed hp he, List.append_cons s.history _ [_]]
  exact AnswersNow.write (answersNow_issue A.facade A.binding rfl hl) rfl

end

/-! ### A CMRG presented to an idle block -/

/-- A CMRG without an override ends when it is accepted (42_merge_engine.md R106). -/
theorem exec_cmrg_none {d : DevAddr} {o : Overrides} {s : State} (hp : s.phase = .idle) (hf : s.facade = none)
    (h0 : o.count = 0) : exec (.cmrg d o) s =
      .next { s with ovr := o, latched := d, result := some .noOpRequested, epoch := s.epoch + 1 } := by
  rw [exec_cmrg_ready hp hf, cmrgAccept_none h0, runEngine_complete, State.complete_of_no_facade _ _ (by exact hf), hp]

/-- Settles O25: with nothing to replace the CMRG ends when it is accepted. -/
theorem cmrgNoOpGuard : Obligations.CmrgNoOpGuard := by
  intro d o s hp hf hm hc ha ht hl hr
  exact exec_cmrg_none hp hf (by simp [Overrides.count, hm, hc, ha, ht, hl, hr])

/-- Settles O26: the write issued on acceptance is answered at once. -/
theorem cmrgFastPath : Obligations.CmrgFastPath := by
  intro d m cv av th pl dr s a rest hp hf hb ha hl
  rw [exec_cmrg_ready hp hf, cmrgAccept_all rfl, hp]
  exact congrArg _ (AnswersNow.write (answersNow_issue hf hb ha hl) rfl)

/-- Settles O27: the read issued on acceptance fails at once. -/
theorem cmrgReadFailure : Obligations.CmrgReadFailure := by
  intro d o s rest hp hf h1 h5 hb ha hl
  rw [exec_cmrg_ready hp hf, cmrgAccept_partial (by omega) (by omega), hp]
  exact congrArg _ (AnswersNow.read_fails (answersNow_issue hf hb ha hl) rfl)

/-- Settles O29: equal writable fields are equal images, so the read's answer ends the CMRG. -/
theorem cmrgShortCircuit : Obligations.CmrgShortCircuit := by
  intro d o s r rest hp hf h1 h5 hb ha hl he
  rw [exec_cmrg_ready hp hf, cmrgAccept_partial (by omega) (by omega), hp]
  exact congrArg _ (AnswersNow.read_unchanged (answersNow_issue hf hb ha hl) rfl (cenc_eq_iff.2 he))

/-- Settles O30: unequal writable fields are unequal images, so the read's answer is followed by the write's. -/
theorem cmrgRealUpdate : Obligations.CmrgRealUpdate := by
  intro d o s r a rest hp hf h1 h5 hb ha hl hl' he
  have hne : cenc (o.merge (cdec r)) ≠ cenc (cdec r) := by simp [cenc_eq_iff, he]
  rw [exec_cmrg_ready hp hf, cmrgAccept_partial (by omega) (by omega), hp]
  exact congrArg _ (AnswersNow.update (answersNow_issue hf hb ha hl) rfl hne hl')

/-- Settles O31: the call issued on acceptance is not answered in this step. -/
theorem cmrgAcceptanceIssuesRequest : Obligations.CmrgAcceptanceIssuesRequest := by
  rintro d o s n hp hf rfl h
  constructor
  · intro h6
    rw [exec_cmrg_ready hp hf, cmrgAccept_all h6]
    exact congrArg _ (runEngine_waits (respond_unanswered rfl h))
  · intro h1 h5
    rw [exec_cmrg_ready hp hf, cmrgAccept_partial (by omega) (by omega)]
    exact congrArg _ (runEngine_waits (respond_unanswered rfl h))

end Sys2Proof.Machine
end

section
/-! PROOFS. The merge: O28, and what of a register read it depends on: O34. -/

namespace Sys2Proof.Machine

/-- An override replaces, its absence leaves as it is (42_merge_engine.md R109). -/
theorem override_getD {α : Type} (x : Option α) (y : α) :
    (∀ v, x = some v → x.getD y = v) ∧ (x = none → x.getD y = y) :=
  ⟨fun _ h => h ▸ rfl, fun h => h ▸ rfl⟩

/-- Settles O28: field by field. -/
theorem mergeReplacesOverriddenFields : Obligations.MergeReplacesOverriddenFields := by
  intro o c
  obtain ⟨hm, hm'⟩ := override_getD o.mode c.mode
  obtain ⟨hc, hc'⟩ := override_getD o.conv c.conv
  obtain ⟨ha, ha'⟩ := override_getD o.avg c.avg
  obtain ⟨ht, ht'⟩ := override_getD o.therm c.therm
  obtain ⟨hp, hp'⟩ := override_getD o.pol c.pol
  obtain ⟨hd, hd'⟩ := override_getD o.dr c.dr
  exact ⟨hm, hm', hc, hc', ha, ha', ht, ht', hp, hp', hd, hd', rfl, rfl, rfl, rfl⟩

/-- The mode field is a part of the writable ones. -/
theorem writable_mode (r : Register) : (r &&& 0x0FFC#16).extractLsb' 10 2 = r.extractLsb' 10 2 := by
  rw [← imageOf_extract, imageOf_mode]

/-- Decoding and encoding again depends on the writable positions alone (41_configuration_codec.md R97). -/
theorem cenc_cdec_congr {a b : Register} (h : a &&& 0x0FFC#16 = b &&& 0x0FFC#16) : cenc (cdec a) = cenc (cdec b) := by
  have hmode : a.extractLsb' 10 2 = b.extractLsb' 10 2 := by rw [← writable_mode a, h, writable_mode]
  have hmask (r : Register) : r &&& 0x03FC#16 = r &&& 0x0FFC#16 &&& 0x03FC#16 := by rw [BitVec.and_assoc]; rfl
  rw [cenc_cdec, cenc_cdec, hmode, hmask a, hmask b, h]

theorem xor_and_distrib {n : Nat} (a b m : BitVec n) : (a ^^^ b) &&& m = (a &&& m) ^^^ (b &&& m) := by
  ext i hi
  simp [Bool.and_xor_distrib_right]

/-- Settles O34: the two registers agree at the writable positions, and the merge keeps equal images equal. -/
theorem cmrgIgnoresFlagsAndReservedBits : Obligations.CmrgIgnoresFlagsAndReservedBits := by
  intro o r x hx
  have h : cenc (cdec (r ^^^ x)) = cenc (cdec r) :=
    cenc_cdec_congr (by rw [xor_and_distrib, hx, BitVec.xor_zero])
  exact ⟨cenc_eq_iff.2 (ceq_merge o (cenc_eq_iff.1 h)), h⟩

end Sys2Proof.Machine
end

section
/-! PROOFS. A CMRG in flight: the rows of R117 out of RD_WAIT and WR_WAIT, and the hand-on to SETCFG: O32. -/

namespace Sys2Proof.Machine

open Sys2Proof.Safety

/-- A CMRG in flight goes on while what is presented, if anything, waits. -/
theorem step_engine {s : State} (hp : s.phase ≠ .idle) (hn : nothingElsePresented s = true) :
    step s = .next (runEngine s.tick.countdown) := by
  rw [step_busy hn ((State.not_ready_iff s).2 (.inl hp)), await, goOn, if_neg (by simpa using hp)]

/-- The step in which the time of the outstanding call has passed. -/
theorem step_engine_due {s : State} {q : Request} {n : Nat} (hp : s.phase ≠ .idle)
    (hn : nothingElsePresented s = true) (hc : s.call = some { req := q, left := n }) (hle : n ≤ 1) :
    step s = .next (runEngine { s with call := some { req := q, left := 0 }, epoch := s.epoch + 1 }) := by
  rw [step_engine hp hn, State.countdown_call hc, Nat.sub_eq_zero_of_le hle]

/-! ### The CMRG of a SETCFG (43_facade_boundary.md R130) -/

/-- The machine with another Facade operation, or none, in flight. -/
def State.withFacade (f : Option Pseudo) (s : State) : State := { s with facade := f }

section
variable {o : Overrides} {f : Option Pseudo} {s x y : State}

/-- The transport does not see who made the call. -/
theorem serve_withFacade (q : Request) :
    (s.withFacade f).serve q = (s.serve q).map (Prod.map id (State.withFacade f)) := by
  unfold State.serve State.withFacade
  dsimp only
  split
  · split <;> rfl
  · split <;> rfl

theorem respond_withFacade : (s.withFacade f).respond = s.respond.map (Prod.map id (State.withFacade f)) := by
  have hc : (s.withFacade f).call = s.call := rfl
  unfold State.respond
  rw [hc]
  split
  · rfl
  · split
    · exact serve_withFacade _
    · rfl

theorem countdown_withFacade : (s.withFacade f).tick.countdown = s.tick.countdown.withFacade f := by
  have hc : (s.withFacade f).tick.call = s.tick.call := rfl
  unfold State.countdown
  rw [hc]
  split <;> rfl

/-- `x` is a state of a CMRG of the requester, and `y` the state of the same CMRG run by SETCFG `o`: in flight, or ended
and its result handed on. A CMRG that issued a call ends as `writeResult` says. -/
inductive Delegates (o : Overrides) (x y : State) : Prop
  | inFlight (hf : x.facade = none) (hp : x.phase ≠ .idle) (hy : y = x.withFacade (some (.setCfg o)))
  | ended (a : Answer) (hp : x.phase = .idle) (hr : x.result = some (writeResult a))
      (hy : y = { x with facadeResult := FacadeResult.ofCore (writeResult a) })

theorem delegates_complete (hf : x.facade = none) (a : Answer) :
    Delegates o (x.complete (writeResult a)) ((x.withFacade (some (.setCfg o))).complete (writeResult a)) := by
  refine .ended a (by simp) (by simp) ?_
  rw [State.complete_of_setCfg _ _ o rfl, State.complete_of_no_facade _ _ hf, ← hf]
  rfl

theorem delegates_readAnswered (hf : x.facade = none) (a : Answer) :
    Delegates o (readAnswered a x) (readAnswered a (x.withFacade (some (.setCfg o)))) := by
  cases a with
  | fail => exact delegates_complete hf .fail
  | ok r =>
    by_cases he : cenc (x.ovr.merge (cdec r)) = cenc (cdec r)
    · rw [readAnswered_unchanged he, readAnswered_unchanged (by exact he)]
      exact delegates_complete (by exact hf) (.ok _)
    · rw [readAnswered_changed he, readAnswered_changed (by exact he)]
      exact .inFlight hf (by simp) rfl

theorem Delegates.engine (H : Delegates o x y) : Delegates o (engine x) (engine y) := by
  cases H with
  | ended a hp hr hy => rw [engine_idle hp, engine_idle (by rw [hy]; exact hp)]; exact .ended a hp hr hy
  | inFlight hf hp hy =>
    subst hy
    have hy : (x.withFacade (some (.setCfg o))).respond = _ := respond_withFacade
    cases hr : x.respond with
    | none =>
      rw [hr] at hy
      rw [engine_waits hr, engine_waits hy]
      exact .inFlight hf hp rfl
    | some z =>
      obtain ⟨a, t⟩ := z
      rw [hr] at hy
      obtain ⟨-, -, -, -, -, htf, -⟩ := State.respond_facts hr
      cases hph : x.phase with
      | idle => exact absurd hph hp
      | rdWait =>
        rw [engine_read hph hr, engine_read (by exact hph) hy]
        exact delegates_readAnswered (htf.trans hf) a
      | wrWait =>
        rw [engine_write hph hr, engine_write (by exact hph) hy, writeAnswered_eq_complete, writeAnswered_eq_complete]
        exact delegates_complete (htf.trans hf) a

theorem Delegates.runEngine (H : Delegates o x y) : Delegates o (runEngine x) (runEngine y) := H.engine.engine

/-- A step of a SETCFG in flight beside the step of its CMRG alone. -/
theorem step_delegates (hf : s.facade = some (.setCfg o)) (hp : s.phase ≠ .idle)
    (hn : nothingElsePresented s = true) :
    ∃ t u, step { s with facade := none } = .next t ∧ step s = .next u ∧ Delegates o t u := by
  refine ⟨_, _, step_engine (s := { s with facade := none }) hp hn, step_engine hp hn, Delegates.runEngine ?_⟩
  refine .inFlight (by simp) (by simpa using hp) ?_
  rw [← countdown_withFacade, State.withFacade, ← hf]

end

/-- Settles O32: the first six rows are those of a call answered in this step, and a SETCFG goes along with its CMRG. -/
theorem phaseTransitionsOnAnswer : Obligations.PhaseTransitionsOnAnswer := by
  constructor
  · intro s a rest q n hf hn hb ha hc hle
    have A : AnswersNow q a rest { s with call := some { req := q, left := 0 }, epoch := s.epoch + 1 } :=
      ⟨hf, hb, ha, rfl⟩
    have row {u : State} (hp : s.phase ≠ .idle)
        (hu : runEngine { s with call := some { req := q, left := 0 }, epoch := s.epoch + 1 } = u) :
        step s = .next u := hu ▸ step_engine_due hp hn hc hle
    refine ⟨?readFails, ?readUnchanged, ?updateWaits, ?update, ?writeFails, ?writeEchoes⟩
    case readFails => rintro hp rfl; exact row (by simp [hp]) (A.read_fails hp)
    case readUnchanged => rintro r hp rfl he; exact row (by simp [hp]) (A.read_unchanged hp he)
    case updateWaits => rintro r k hp rfl he hl hk; exact row (by simp [hp]) (A.update_waits hp he hl hk)
    case update => rintro r b rest' hp rfl he hl rfl; exact row (by simp [hp]) (A.update hp he hl)
    case writeFails => rintro hp rfl; exact row (by simp [hp]) (A.write hp)
    case writeEchoes => rintro e hp rfl; exact row (by simp [hp]) (A.write hp)
  · intro s o hf hp hn
    obtain ⟨t, u, ht, hu, H⟩ := step_delegates hf hp hn
    refine ⟨t, ht, ?_⟩
    rw [hu]
    cases H with
    | inFlight _ hpt hy =>
      exact ⟨fun _ => congrArg _ hy, fun _ h => absurd h hpt, fun h => absurd h hpt, fun h => absurd h hpt⟩
    | ended a hpt hr hy =>
      rw [hy, hr]
      refine ⟨fun h => absurd hpt h, fun v _ h => ?register, fun _ h => ?failure, fun _ => ?either⟩
      case register => rw [Option.some.inj h]; rfl
      case failure => rw [Option.some.inj h]; rfl
      case either =>
        cases a with
        | ok e => exact .inr ⟨e, rfl⟩
        | fail => exact .inl rfl

end Sys2Proof.Machine
end

section
/-! PROOFS. A CMRG whatever the transport: the calls it issues, what it leaves unchanged, and that it does not return
unanswered: O33, O35, O38. -/

namespace Sys2Proof.Machine

/-- Settles O33: each of the eight ways a CMRG leaves the presenting step is one of the statement's. -/
theorem cmrgCallsReadThenWriteAtMost : Obligations.CmrgCallsReadThenWriteAtMost := by
  intro d o s hp hf
  obtain ⟨t, evs, ht, hh, hout⟩ := cmrg_outcome d o hp hf
  refine ⟨t, evs, ht, hh, ?_⟩
  have five (h6 : o.count ≠ 6) : o.count ≤ 5 := by have := o.count_le; omega
  cases hout with
  | noOp h0 _ hpt hct => exact .inl ⟨h0, rfl, hpt, hct⟩
  | writeWaits n h6 _ hpt hct => exact .inr (.inl ⟨h6, _, cenc_canonical _, .inl ⟨n, rfl, hpt, hct⟩⟩)
  | fastPath a h6 _ hpt hct => exact .inr (.inl ⟨h6, _, cenc_canonical _, .inr ⟨a, rfl, hpt, hct⟩⟩)
  | readWaits n h1 h6 _ hpt hct => exact .inr (.inr ⟨h1, five h6, .inl ⟨n, rfl, hpt, hct⟩⟩)
  | readFails h1 h6 _ hpt hct => exact .inr (.inr ⟨h1, five h6, .inr (.inl ⟨.fail, rfl, hpt, hct⟩)⟩)
  | shortCircuit r h1 h6 _ _ hpt hct => exact .inr (.inr ⟨h1, five h6, .inr (.inl ⟨.ok r, rfl, hpt, hct⟩)⟩)
  | updateWaits r n h1 h6 _ _ hpt hct =>
    exact .inr (.inr ⟨h1, five h6, .inr (.inr (.inl ⟨r, _, n, cenc_canonical _, rfl, hpt, hct⟩))⟩)
  | update r a h1 h6 _ _ hpt hct =>
    exact .inr (.inr ⟨h1, five h6, .inr (.inr (.inr ⟨r, _, a, cenc_canonical _, rfl, hpt, hct⟩))⟩)

/-! ### What a CMRG leaves unchanged -/

/-- The register a transport call names. -/
def Request.regaddr : Request → RegAddr
  | .rd _ a => a
  | .wr _ a _ => a

/-- A call on the stub leaves every register but the one it names (20_memory.md R54). -/
theorem stubStore_read_other (m : Memory) (q : Request) {b : Nat} (h : b ≠ q.regaddr.toNat) :
    (stubStore m q).read b = m.read b := by
  cases q with
  | rd d a => rfl
  | wr d a v => exact Memory.read_write_other m a.toNat b v h

theorem serve_store {q : Request} {s t : State} {a : Answer} (h : s.serve q = some (a, t)) :
    t.store = s.store ∨ t.store = stubStore s.store q := by
  unfold State.serve at h
  split at h
  · split at h
    · cases h
    · cases h; exact .inl rfl
  · split at h
    · cases h; exact .inl rfl
    · cases h; exact .inr rfl

/-- An answer leaves every register of the store but the one its call names. -/
theorem respond_read_other {s t : State} {a : Answer} {c : Call} (h : s.respond = some (a, t)) (hc : s.call = some c)
    {b : Nat} (hb : b ≠ c.req.regaddr.toNat) : t.store.read b = s.store.read b := by
  unfold State.respond at h
  rw [hc] at h
  dsimp only at h
  split at h
  · obtain hs | hs := serve_store h
    · rw [hs]
    · rw [hs, stubStore_read_other _ _ hb]
  · cases h

/-- What a state `x` of the CMRG `d`, `o` keeps of the block `s` that it was presented to, and the register that its
outstanding call names (42_merge_engine.md R113). -/
structure CmrgFrame (d : DevAddr) (o : Overrides) (s x : State) : Prop where
  devaddr : x.devaddr = s.devaddr
  facade : x.facade = none
  facadeResult : x.facadeResult = s.facadeResult
  binding : x.binding = s.binding
  inputs : x.inputs = s.inputs
  ovr : x.ovr = o
  latched : x.latched = d
  store : ∀ a, a ≠ addrCfg.toNat → x.store.read a = s.store.read a
  port : x.phase ≠ .idle → ∀ c, x.call = some c → c.req.regaddr = addrCfg

section
variable {d : DevAddr} {o : Overrides} {s x t : State} {a : Answer}

theorem CmrgFrame.complete (F : CmrgFrame d o s x) (r : Result) : CmrgFrame d o s (x.complete r) := by
  rw [State.complete_of_no_facade r x F.facade]
  exact { F with port := fun h => absurd rfl h }

theorem CmrgFrame.withCandidate (F : CmrgFrame d o s x) (r w : Register) :
    CmrgFrame d o s { x with cur := r, cand := w } :=
  ⟨F.devaddr, F.facade, F.facadeResult, F.binding, F.inputs, F.ovr, F.latched, F.store, F.port⟩

theorem CmrgFrame.respond (F : CmrgFrame d o s x) (hp : x.phase ≠ .idle) (h : x.respond = some (a, t)) :
    CmrgFrame d o s t := by
  obtain ⟨c, hc, -, as, fs, m, rfl, -⟩ := State.respond_spec h
  have store (b : Nat) (hb : b ≠ addrCfg.toNat) : m.read b = s.store.read b :=
    (respond_read_other h hc (by rwa [F.port hp c hc])).trans (F.store b hb)
  exact { F with store, port := nofun }

theorem CmrgFrame.readAnswered (F : CmrgFrame d o s x) (a : Answer) : CmrgFrame d o s (readAnswered a x) := by
  cases a with
  | fail => exact F.complete _
  | ok r =>
    by_cases he : cenc (x.ovr.merge (cdec r)) = cenc (cdec r)
    · rw [readAnswered_unchanged he]
      exact (F.withCandidate r _).complete _
    · rw [readAnswered_changed he]
      exact { F with port := fun _ c hc => by cases hc; rfl }

theorem CmrgFrame.engine (F : CmrgFrame d o s x) : CmrgFrame d o s (engine x) := by
  cases hr : x.respond with
  | none => rw [engine_waits hr]; exact F
  | some y =>
    obtain ⟨a, t⟩ := y
    cases hp : x.phase with
    | idle => rw [engine_idle hp]; exact F
    | rdWait => rw [engine_read hp hr]; exact (F.respond (by simp [hp]) hr).readAnswered a
    | wrWait =>
      rw [engine_write hp hr, writeAnswered_eq_complete]
      exact (F.respond (by simp [hp]) hr).complete _

theorem CmrgFrame.runEngine (F : CmrgFrame d o s x) : CmrgFrame d o s (runEngine x) := F.engine.engine

/-- Acceptance latches the operands, and its call names CFGR. -/
theorem cmrgFrame_cmrgAccept (d : DevAddr) (o : Overrides) (hf : s.facade = none) :
    CmrgFrame d o s (cmrgAccept d o s) := by
  by_cases h0 : o.count = 0
  · rw [cmrgAccept_none h0, State.complete_of_no_facade _ _ (by exact hf)]
    exact ⟨rfl, hf, rfl, rfl, rfl, rfl, rfl, fun _ _ => rfl, fun h => absurd rfl h⟩
  · by_cases h6 : o.count = 6
    · rw [cmrgAccept_all h6]
      exact ⟨rfl, hf, rfl, rfl, rfl, rfl, rfl, fun _ _ => rfl, fun _ c hc => by cases hc; rfl⟩
    · rw [cmrgAccept_partial h0 h6]
      exact ⟨rfl, hf, rfl, rfl, rfl, rfl, rfl, fun _ _ => rfl, fun _ c hc => by cases hc; rfl⟩

end

/-- Settles O35: the engine keeps the frame from acceptance on. -/
theorem cmrgLeavesTheRestUnchanged : Obligations.CmrgLeavesTheRestUnchanged := by
  intro d o s t hp hf h
  have F : CmrgFrame d o s t := by
    rw [exec_cmrg_ready hp hf] at h
    cases h
    exact (cmrgFrame_cmrgAccept d o hf).runEngine
  refine ⟨F.devaddr, F.facade, F.facadeResult, F.binding, F.inputs, F.ovr, F.latched, F.store, fun h0 => ?_⟩
  rw [exec_cmrg_none hp hf h0] at h
  cases h
  exact ⟨rfl, rfl, rfl, rfl, rfl⟩

/-! ### A transport that never answers -/

/-- A CMRG in flight on an external transport that lists no answer, with nothing presented; `h` is the history. -/
structure Unanswered (h : List Event) (x : State) : Prop where
  inputs : x.inputs = []
  binding : x.binding = .external
  answers : x.answers = []
  phase : x.phase ≠ .idle
  result : x.result = none
  history : x.history = h

section
variable {h : List Event} {s x : State}

theorem Unanswered.runEngine (U : Unanswered h x) : runEngine x = x :=
  runEngine_waits (State.respond_silent U.binding U.answers)

theorem Unanswered.countdown (U : Unanswered h x) : Unanswered h x.tick.countdown :=
  ⟨by simp [U.inputs], by simp [U.binding], by simp [U.answers], by simp [U.phase], by simp [U.result],
    by simp [U.history]⟩

theorem Unanswered.step (U : Unanswered h x) : step x = .next x.tick.countdown := by
  rw [step_in_flight U.inputs U.phase, U.countdown.runEngine]

theorem Unanswered.run (U : Unanswered h x) (n : Nat) : ∃ u, Sys2Proof.core.run n x = .next u ∧ Unanswered h u := by
  induction n generalizing x with
  | zero => exact ⟨x, run_zero x, U⟩
  | succ n ih =>
    obtain ⟨u, hu, Uu⟩ := ih U.countdown
    exact ⟨u, (run_succ n U.step).trans hu, Uu⟩

theorem unanswered_cmrgAccept (d : DevAddr) {o : Overrides} (hi : s.inputs = []) (hb : s.binding = .external)
    (ha : s.answers = []) (h1 : 1 ≤ o.count) : Unanswered s.history (cmrgAccept d o s) := by
  by_cases h6 : o.count = 6
  · rw [cmrgAccept_all h6]
    exact ⟨hi, hb, ha, by simp, rfl, rfl⟩
  · rw [cmrgAccept_partial (by omega) h6]
    exact ⟨hi, hb, ha, by simp, rfl, rfl⟩

end

/-- Settles O38: the CMRG is unanswered when it is accepted and stays so. -/
theorem cmrgNeverReturnsUnanswered : Obligations.CmrgNeverReturnsUnanswered := by
  intro d o s t n hp hf hi hb ha h1 h
  have U : Unanswered s.history (cmrgAccept d o s) := unanswered_cmrgAccept d hi hb ha h1
  rw [exec_cmrg_ready hp hf, U.runEngine] at h
  cases h
  obtain ⟨u, hu, Uu⟩ := U.run n
  exact ⟨u, hu, Uu.phase, Uu.result, Uu.history⟩

end Sys2Proof.Machine
end

section
/-! PROOFS. The Facade's one call, issued, waiting and answered: O45, O46, O48, O49, O58, O59. -/

namespace Sys2Proof.Machine

open Sys2Proof.Safety

/-! ### A Facade operation presented to an idle block (43_facade_boundary.md R125) -/

/-- What stands at CORE's ports when a Facade operation makes its call: SETHI and SETLO have run TENC (R131). -/
def State.encodeFirst (p : Pseudo) (s : State) : State :=
  match p with
  | .setHi x => { s with result := some (.reg (tenc x)), epoch := s.epoch + 1 }
  | .setLo x => { s with result := some (.reg (tenc x)), epoch := s.epoch + 1 }
  | _ => s

theorem encodeFirst_eq (p : Pseudo) (s : State) :
    ∃ re ep, s.encodeFirst p = { s with result := re, epoch := ep } := by
  cases p <;> exact ⟨_, _, rfl⟩

/-- TENC run before the call changes the result and the counter. -/
theorem complete_idle {s : State} (hp : s.phase = .idle) (hf : s.facade = none) (r : Result) :
    s.complete r = { s with result := some r, epoch := s.epoch + 1 } := by
  rw [State.complete_of_no_facade r s hf, ← hp]

section
variable {p : Pseudo} {q : Request} {a : Answer} {rest : List Answer} {n : Nat} {s : State}

/-- An operation that makes a call of its own makes that one call, after its codec (R126, R128, R129, R131). -/
theorem execPseudo_call (hp : s.phase = .idle) (hf : s.facade = none) (hq : facadeRequest s.devaddr p = some q) :
    execPseudo p s = .next (facadeCall p q (s.encodeFirst p)) := by
  have ready (go : State) : s.whenReady go = .next go := State.whenReady_ready s go ((State.ready_iff s).2 ⟨hp, hf⟩)
  cases p with
  | getTemp => cases hq; exact ready _
  | getId => cases hq; exact ready _
  | getCfgRaw => cases hq; exact ready _
  | getCfg => cases hq; exact ready _
  | setHi x => cases hq; exact (ready _).trans (by rw [setHi, complete_idle hp hf]; rfl)
  | setLo x => cases hq; exact (ready _).trans (by rw [setLo, complete_idle hp hf]; rfl)
  | setCfg o => cases hq
  | setAddr d => cases hq

/-- The external transport answers the call of the Facade operation in flight. -/
theorem facadeRun_external (hf : s.facade = some p) (hb : s.binding = .external) (ha : s.answers = a :: rest)
    (hc : s.call = some { req := q, left := 0 }) : facadeRun s = facadeFinish p a { s with
      facade := none, answers := rest, call := none, history := s.history ++ [{ req := q, outcome := a }] } := by
  rw [facadeRun_answered hf (State.respond_external hc hb ha)]

/-- The call is not answered in this step. -/
theorem facadeCall_waits (h : 1 ≤ s.latency.headD 0 ∨ (s.binding = .external ∧ s.answers = [])) :
    facadeCall p q s = { s with
      facade := some p, facadeResult := none, latency := s.latency.tail,
      call := some { req := q, left := s.latency.headD 0 } } :=
  facadeRun_waits (respond_unanswered rfl h)

/-- The call is answered in this step. -/
theorem facadeCall_answered (hb : s.binding = .external) (ha : s.answers = a :: rest) (hl : s.latency.headD 0 = 0) :
    facadeCall p q s = facadeFinish p a { s with
      facade := none, facadeResult := none, answers := rest, latency := s.latency.tail, call := none,
      history := s.history ++ [{ req := q, outcome := a }] } :=
  facadeRun_external rfl hb ha (by rw [State.issue_call, hl])

theorem execPseudo_waits (hp : s.phase = .idle) (hf : s.facade = none) (hl : s.latency.headD 0 = n)
    (h : 1 ≤ n ∨ (s.binding = .external ∧ s.answers = [])) (hq : facadeRequest s.devaddr p = some q) :
    execPseudo p s = .next { s.encodeFirst p with
      facade := some p, facadeResult := none, latency := s.latency.tail, call := some { req := q, left := n } } := by
  subst hl
  rw [execPseudo_call hp hf hq]
  obtain ⟨re, ep, he⟩ := encodeFirst_eq p s
  rw [he]
  exact congrArg _ (facadeCall_waits h)

theorem execPseudo_answered (hp : s.phase = .idle) (hf : s.facade = none) (hb : s.binding = .external)
    (ha : s.answers = a :: rest) (hl : s.latency.headD 0 = 0) (hq : facadeRequest s.devaddr p = some q) :
    execPseudo p s = .next (facadeFinish p a { s.encodeFirst p with
      facade := none, facadeResult := none, answers := rest, latency := s.latency.tail, call := none,
      history := s.history ++ [{ req := q, outcome := a }] }) := by
  rw [execPseudo_call hp hf hq]
  obtain ⟨re, ep, he⟩ := encodeFirst_eq p s
  rw [he]
  exact congrArg _ (facadeCall_answered hb ha hl)

/-! ### An operation in flight -/

/-- Whichever operation is in flight, it waits while its call is not answered (42_merge_engine.md R117). -/
theorem await_waits (hc : s.call = some { req := q, left := n })
    (h : 2 ≤ n ∨ (s.binding = .external ∧ s.answers = [])) :
    await s = { s with call := some { req := q, left := n - 1 }, epoch := s.epoch + 1 } := by
  have hr : State.respond { s with call := some { req := q, left := n - 1 }, epoch := s.epoch + 1 } = none :=
    respond_unanswered rfl (h.imp_left (by omega))
  rw [await, State.countdown_call hc, goOn]
  split
  · exact facadeRun_waits hr
  · exact runEngine_waits hr

/-- A Facade operation in flight ends in the step that its call is answered in. -/
theorem step_facade_answered (hp : s.phase = .idle) (hn : nothingElsePresented s = true) (hb : s.binding = .external)
    (ha : s.answers = a :: rest) (hc : s.call = some { req := q, left := n }) (hle : n ≤ 1)
    (hf : s.facade = some p) : step s = .next (facadeFinish p a { s with
      facade := none, answers := rest, call := none, history := s.history ++ [{ req := q, outcome := a }],
      epoch := s.epoch + 1 }) := by
  rw [step_busy hn ((State.not_ready_iff s).2 (.inr (by simp [hf]))), await, State.countdown_call hc,
    Nat.sub_eq_zero_of_le hle, goOn, if_pos (by exact hp)]
  exact congrArg _ (facadeRun_external hf hb ha rfl)

end

/-! ### O45, O46, O48, O49, O58, O59 -/

/-- Settles O45: the one read is answered at once, and the sentinel is the decoded least image. -/
theorem getTempReadsOrGivesSentinel : Obligations.GetTempReadsOrGivesSentinel := by
  have sentinel : tdec 0x8000#16 = 0xC3800000#32 := by decide
  refine ⟨fun s a rest hp hf hb ha hl => ⟨_, execPseudo_answered (p := .getTemp) hp hf hb ha hl rfl, ?_⟩, sentinel, ?_⟩
  · cases a with
    | ok r => exact ⟨rfl, rfl, rfl, rfl, rfl, rfl, rfl, rfl⟩
    | fail => exact ⟨rfl, rfl, rfl, hp, rfl, rfl, rfl, rfl⟩
  · have least : sint16 0x8000#16 = -32768 := by decide
    rw [← sentinel, floatValue_tdec, least]
    norm_num

/-- Settles O46: the one read is answered at once. -/
theorem facadeReadsReturnRegisterOrFailure : Obligations.FacadeReadsReturnRegisterOrFailure := by
  intro s a rest hp hf hb ha hl
  refine ⟨?id, ?raw, ?cfg, ?cfgFails⟩
  case id =>
    rw [execPseudo_answered (p := .getId) hp hf hb ha hl rfl, hf]
    cases a <;> rfl
  case raw =>
    rw [execPseudo_answered (p := .getCfgRaw) hp hf hb ha hl rfl, hf]
    cases a <;> rfl
  case cfg =>
    rintro r rfl
    rw [execPseudo_answered (p := .getCfg) hp hf hb ha hl rfl, hf, hp]
    rfl
  case cfgFails =>
    rintro rfl
    rw [execPseudo_answered (p := .getCfg) hp hf hb ha hl rfl, hf]
    rfl

/-- Settles O48: the one write is answered at once, after TENC. -/
theorem setLimitsWriteUnconditionally : Obligations.SetLimitsWriteUnconditionally := by
  intro x s a rest hp hf hb ha hl
  constructor
  · rw [execPseudo_answered (p := .setHi x) hp hf hb ha hl rfl, hf]
    cases a <;> rfl
  · rw [execPseudo_answered (p := .setLo x) hp hf hb ha hl rfl, hf]
    cases a <;> rfl

/-- Settles O49: the address is checked against the set. -/
theorem setAddrReaddresses : Obligations.SetAddrReaddresses := by
  intro a s hp hf
  have hr : s.ready = true := (State.ready_iff s).2 ⟨hp, hf⟩
  constructor
  · intro ha
    simp [execPseudo, hr, setAddr, WellFormed.pseudo, ha]
  · intro ha
    simp [execPseudo, hr, setAddr, WellFormed.pseudo, ha]

/-- Settles O58: the call is left outstanding, and an unanswered call keeps whichever operation is in flight waiting. -/
theorem facadeIssuesOneCallAndWaits : Obligations.FacadeIssuesOneCallAndWaits := by
  constructor
  · intro s n hp hf hl h
    have waits {p : Pseudo} {q : Request} := execPseudo_waits (p := p) (q := q) hp hf hl h
    exact ⟨waits rfl, waits rfl, waits rfl, waits rfl, fun _ => waits rfl, fun _ => waits rfl⟩
  · intro s q n hbusy hn hc h
    rw [step_busy hn ((State.not_ready_iff s).2 hbusy), await_waits hc h]

/-- Settles O59: the operation ends with its answer, and TDEC and CDEC leave the engine idle as it is. -/
theorem facadeReturnsWhenAnswered : Obligations.FacadeReturnsWhenAnswered := by
  intro s a rest q n hp hn hb ha hc hle
  have ends {p : Pseudo} := step_facade_answered (p := p) hp hn hb ha hc hle
  refine ⟨?temp, ?sentinel, ?cfg, ?register, ?failure⟩
  case temp => rintro r hf rfl; rw [ends hf, hp]; rfl
  case sentinel => rintro hf rfl; exact ends hf
  case cfg => rintro r hf rfl; rw [ends hf, hp]; rfl
  case register => rintro r (hf | hf | ⟨x, hf | hf⟩) rfl <;> exact ends hf
  case failure => rintro (hf | hf | hf | ⟨x, hf | hf⟩) rfl <;> exact ends hf

end Sys2Proof.Machine
end

section
/-! PROOFS. SETCFG beside the CMRG it delegates to (43_facade_boundary.md R130): O47. -/

namespace Sys2Proof.Machine

/-- The machine with another record of what the Facade last returned. -/
def State.withRecord (r : Option FacadeResult) (s : State) : State := { s with facadeResult := r }

section
variable {fr : Option FacadeResult} {s : State}

/-! ### A CMRG of the requester does not see the Facade's record -/

theorem serve_withRecord (q : Request) :
    (s.withRecord fr).serve q = (s.serve q).map (Prod.map id (State.withRecord fr)) := by
  unfold State.serve State.withRecord
  dsimp only
  split
  · split <;> rfl
  · split <;> rfl

theorem respond_withRecord : (s.withRecord fr).respond = s.respond.map (Prod.map id (State.withRecord fr)) := by
  have hc : (s.withRecord fr).call = s.call := rfl
  unfold State.respond
  rw [hc]
  split
  · rfl
  · split
    · exact serve_withRecord _
    · rfl

theorem complete_withRecord (hf : s.facade = none) (r : Result) :
    (s.withRecord fr).complete r = (s.complete r).withRecord fr := by
  rw [State.complete_of_no_facade r s hf, State.complete_of_no_facade r _ (by exact hf)]
  rfl

theorem readAnswered_withRecord (hf : s.facade = none) (a : Answer) :
    readAnswered a (s.withRecord fr) = (readAnswered a s).withRecord fr := by
  cases a with
  | fail => exact complete_withRecord hf _
  | ok r =>
    by_cases he : cenc (s.ovr.merge (cdec r)) = cenc (cdec r)
    · rw [readAnswered_unchanged he, readAnswered_unchanged (by exact he)]
      exact complete_withRecord (s := { s with cur := r, cand := cenc (s.ovr.merge (cdec r)) }) hf _
    · rw [readAnswered_changed he, readAnswered_changed (by exact he)]
      rfl

theorem engine_withRecord (hf : s.facade = none) : engine (s.withRecord fr) = (engine s).withRecord fr := by
  have hy : (s.withRecord fr).respond = _ := respond_withRecord
  cases hr : s.respond with
  | none => rw [hr] at hy; rw [engine_waits hr, engine_waits hy]
  | some y =>
    obtain ⟨a, t⟩ := y
    rw [hr] at hy
    obtain ⟨-, -, -, -, -, htf, -⟩ := State.respond_facts hr
    cases hp : s.phase with
    | idle => rw [engine_idle hp, engine_idle (by exact hp)]
    | rdWait =>
      rw [engine_read hp hr, engine_read (by exact hp) hy]
      exact readAnswered_withRecord (htf.trans hf) a
    | wrWait =>
      rw [engine_write hp hr, engine_write (by exact hp) hy, writeAnswered_eq_complete, writeAnswered_eq_complete]
      exact complete_withRecord (htf.trans hf) _

theorem cmrgAccept_withRecord (d : DevAddr) (o : Overrides) (hf : s.facade = none) :
    cmrgAccept d o (s.withRecord fr) = (cmrgAccept d o s).withRecord fr := by
  by_cases h0 : o.count = 0
  · rw [cmrgAccept_none h0, cmrgAccept_none h0]
    exact complete_withRecord (s := { s with ovr := o, latched := d, result := none }) hf _
  · by_cases h6 : o.count = 6
    · rw [cmrgAccept_all h6, cmrgAccept_all h6]
      rfl
    · rw [cmrgAccept_partial h0 h6, cmrgAccept_partial h0 h6]
      rfl

/-- The record before a CMRG is the record after it, and changes nothing else. -/
theorem cmrg_withRecord (d : DevAddr) (o : Overrides) (hf : s.facade = none) :
    runEngine (cmrgAccept d o (s.withRecord fr)) = (runEngine (cmrgAccept d o s)).withRecord fr := by
  have F : CmrgFrame d o s (cmrgAccept d o s) := cmrgFrame_cmrgAccept d o hf
  rw [cmrgAccept_withRecord d o hf, runEngine, engine_withRecord F.facade, engine_withRecord F.engine.facade]
  rfl

/-! ### The hand-on -/

/-- A CMRG that issues a call is in flight after its acceptance, and so is the SETCFG. -/
theorem delegates_cmrgAccept (d : DevAddr) {o : Overrides} (h0 : o.count ≠ 0) (hf : s.facade = none) :
    Delegates o (cmrgAccept d o s) (cmrgAccept d o (s.withFacade (some (.setCfg o)))) := by
  by_cases h6 : o.count = 6
  · rw [cmrgAccept_all h6, cmrgAccept_all h6]
    exact .inFlight hf (by simp) rfl
  · rw [cmrgAccept_partial h0 h6, cmrgAccept_partial h0 h6]
    exact .inFlight hf (by simp) rfl

/-- The state `u` of SETCFG `o` beside the state `t` of its CMRG: in flight with its record cleared, or ended with the
CMRG's result handed on. -/
inductive HandsOn (o : Overrides) (t u : State) : Prop
  | inFlight (hp : t.phase ≠ .idle) (hu : u = { t with facade := some (.setCfg o), facadeResult := none })
  | ended (r : Result) (hp : t.phase = .idle) (hr : t.result = some r)
      (hu : u = { t with facadeResult := FacadeResult.ofCore r })

/-- SETCFG differs from its CMRG in the Facade's own fields alone. -/
theorem HandsOn.eq {o : Overrides} {t u : State} (H : HandsOn o t u) :
    ∃ f r, u = { t with facade := f, facadeResult := r } := by
  cases H with
  | inFlight _ hu => exact ⟨_, _, hu⟩
  | ended _ _ _ hu => exact ⟨t.facade, _, hu⟩

/-- SETCFG presented to an idle block, beside the CMRG with DEVADDR. -/
theorem execPseudo_setCfg (o : Overrides) (hp : s.phase = .idle) (hf : s.facade = none) :
    ∃ t u, exec (.cmrg s.devaddr o) s = .next t ∧ execPseudo (.setCfg o) s = .next u ∧ HandsOn o t u := by
  refine ⟨_, _, exec_cmrg_ready hp hf, State.whenReady_ready _ _ ((State.ready_iff s).2 ⟨hp, hf⟩), ?_⟩
  by_cases h0 : o.count = 0
  · refine .ended .noOpRequested ?_ ?_ ?_
    · rw [cmrgAccept_none h0, runEngine_complete, State.complete_phase]
    · rw [cmrgAccept_none h0, runEngine_complete, State.complete_result]
    · rw [setCfg, cmrgAccept_none h0, cmrgAccept_none h0, runEngine_complete, runEngine_complete,
        State.complete_of_setCfg _ _ o rfl, State.complete_of_no_facade _ _ (by exact hf), hf]
  · have H : Delegates o (runEngine (cmrgAccept s.devaddr o (s.withRecord none))) (setCfg o s) :=
      (delegates_cmrgAccept s.devaddr h0 (by exact hf)).runEngine
    rw [cmrg_withRecord s.devaddr o hf] at H
    cases H with
    | inFlight _ hpt hu => exact .inFlight hpt hu
    | ended a hpt hr hu => exact .ended _ hpt hr hu

end

/-- Settles O47: SETCFG is in flight with its CMRG, or ends with its result handed on. -/
theorem setCfgDelegatesToCmrg : Obligations.SetCfgDelegatesToCmrg := by
  intro o s hp hf
  obtain ⟨t, u, ht, hu, H⟩ := execPseudo_setCfg o hp hf
  refine ⟨t, ht, ?_⟩
  rw [hu]
  cases H with
  | inFlight hpt hu =>
    exact ⟨fun _ => congrArg _ hu, fun _ h => absurd h hpt, fun h => absurd h hpt, fun h => absurd h hpt⟩
  | ended r hpt hr hu =>
    have handed {r' : Result} (h : t.result = some r') : u = { t with facadeResult := FacadeResult.ofCore r' } := by
      rw [hu, Option.some.inj (hr.symm.trans h)]
    exact ⟨fun h => absurd hpt h, fun _ _ h => congrArg _ (handed h), fun _ h => congrArg _ (handed h),
      fun _ h => congrArg _ (handed h)⟩

end Sys2Proof.Machine
end

section
/-! PROOFS. What a Facade operation leaves unchanged, whatever the transport: O50. -/

namespace Sys2Proof.Machine

open Sys2Proof.Safety

/-- An answer leaves the store, or makes of it what the stub makes of the call (20_memory.md R54). -/
theorem respond_store {s t : State} {a : Answer} {c : Call} (h : s.respond = some (a, t)) (hc : s.call = some c) :
    t.store = s.store ∨ t.store = stubStore s.store c.req := by
  unfold State.respond at h
  rw [hc] at h
  dsimp only at h
  split at h
  · exact serve_store h
  · cases h

/-- The call of a Facade operation leaves every register of the stub's store but the one SETHI or SETLO writes
(20_memory.md R53). -/
theorem facadeRequest_read_other {d : DevAddr} {p : Pseudo} {q : Request} (hq : facadeRequest d p = some q) (m : Memory)
    {b : Nat} (hHigh : ∀ x, p = .setHi x → b ≠ addrHigh.toNat) (hLow : ∀ x, p = .setLo x → b ≠ addrLow.toNat) :
    (stubStore m q).read b = m.read b := by
  cases p with
  | setHi x => cases hq; exact stubStore_read_other m _ (hHigh x rfl)
  | setLo x => cases hq; exact stubStore_read_other m _ (hLow x rfl)
  | setCfg o => cases hq
  | setAddr a => cases hq
  | _ => cases hq; rfl

/-- What a state `x` of a Facade operation whose one call is `q` keeps of the idle block `s` that it was presented to. -/
structure FacadeFrame (q : Request) (s x : State) : Prop where
  binding : x.binding = s.binding
  inputs : x.inputs = s.inputs
  devaddr : x.devaddr = s.devaddr
  phase : x.phase = .idle
  ovr : x.ovr = s.ovr
  cur : x.cur = s.cur
  cand : x.cand = s.cand
  latched : x.latched = s.latched
  store : x.store = s.store ∨ x.store = stubStore s.store q

section
variable {p : Pseudo} {q : Request} {s t x : State}

theorem FacadeFrame.facadeFinish (F : FacadeFrame q s x) (p : Pseudo) (a : Answer) :
    FacadeFrame q s (facadeFinish p a x) := by
  unfold Machine.facadeFinish
  split <;>
    exact ⟨by simp [F.binding], by simp [F.inputs], by simp [F.devaddr], by simp [F.phase], by simp [F.ovr],
      by simp [F.cur], by simp [F.cand], by simp [F.latched], by simpa using F.store⟩

theorem facadeFrame_facadeCall (p : Pseudo) (q : Request) (hp : s.phase = .idle) :
    FacadeFrame q s (facadeCall p q s) := by
  unfold facadeCall
  cases hr : (State.issue q { s with facade := some p, facadeResult := none }).respond with
  | none => rw [facadeRun_waits hr]; exact ⟨rfl, rfl, rfl, hp, rfl, rfl, rfl, rfl, .inl rfl⟩
  | some y =>
    obtain ⟨a, t⟩ := y
    have hstore := respond_store hr rfl
    obtain ⟨c, hc, -, as, fs, m, rfl, -⟩ := State.respond_spec hr
    rw [facadeRun_answered rfl hr]
    refine FacadeFrame.facadeFinish ?_ p a
    exact ⟨rfl, rfl, rfl, hp, rfl, rfl, rfl, rfl, hstore⟩

theorem facadeFrame_execPseudo (hp : s.phase = .idle) (hf : s.facade = none)
    (hq : facadeRequest s.devaddr p = some q) (h : execPseudo p s = .next t) : FacadeFrame q s t := by
  rw [execPseudo_call hp hf hq] at h
  cases h
  obtain ⟨re, ep, he⟩ := encodeFirst_eq p s
  rw [he]
  obtain ⟨hb, hi, hd, hph, ho, hcu, hca, hla, hm⟩ :=
    facadeFrame_facadeCall p q (s := { s with result := re, epoch := ep }) hp
  exact ⟨hb, hi, hd, hph, ho, hcu, hca, hla, hm⟩

end

/-- Settles O50: an operation that makes its one call keeps the frame of that call, SETCFG that of its CMRG. -/
theorem facadeLeavesTheRestUnchanged : Obligations.FacadeLeavesTheRestUnchanged := by
  intro p s t hp hf h
  cases hq : facadeRequest s.devaddr p with
  | some q =>
    have F : FacadeFrame q s t := facadeFrame_execPseudo hp hf hq h
    refine ⟨F.binding, F.inputs, fun a hHigh hLow _ => ?_, fun _ => F.devaddr,
      fun _ => ⟨F.phase, F.ovr, F.cur, F.cand, F.latched⟩⟩
    obtain hm | hm := F.store
    · rw [hm]
    · rw [hm, facadeRequest_read_other hq _ hHigh hLow]
  | none =>
    cases p with
    | setCfg o =>
      obtain ⟨x, u, hx, hu, H⟩ := execPseudo_setCfg o hp hf
      cases hu.symm.trans h
      obtain ⟨hd, -, -, hb, hi, -, -, hm, -⟩ := cmrgLeavesTheRestUnchanged s.devaddr o s x hp hf hx
      obtain ⟨f, r, rfl⟩ := H.eq
      exact ⟨hb, hi, fun a _ _ ha => hm a (ha o rfl), fun _ => hd, fun hne => absurd rfl (hne o)⟩
    | setAddr d =>
      obtain ⟨hmem, hout⟩ := setAddrReaddresses d s hp hf
      by_cases hd : d ∈ Config.devAddrSet
      · cases (hmem hd).symm.trans h
        exact ⟨rfl, rfl, fun _ _ _ _ => rfl, fun hne => absurd rfl (hne d), fun _ => ⟨hp, rfl, rfl, rfl, rfl⟩⟩
      · cases (hout hd).symm.trans h
    | _ => cases hq

end Sys2Proof.Machine
end

section
/-! PROOFS. How the operations of CORE fail (60_exceptions.md R143): O41. -/

namespace Sys2Proof.Machine

theorem writeResult_ne_noOpRequested (a : Answer) : writeResult a ≠ .noOpRequested := by
  cases a <;> simp [writeResult]

theorem writeResult_eq_transportFailure_iff {a : Answer} : writeResult a = .transportFailure ↔ a = .fail := by
  cases a <;> simp [writeResult]

section
variable {d : DevAddr} {o : Overrides} {c : Option Call} {t : State} {evs : List Event}

/-- A CMRG ends with `NoOpRequested` exactly when no override is present (42_merge_engine.md R106). -/
theorem CmrgOutcome.noOpRequested_iff (C : CmrgOutcome d o c t evs) :
    t.result = some .noOpRequested ↔ o.count = 0 := by
  cases C with
  | noOp h0 hr => simp [h0, hr]
  | writeWaits n h6 hr => simp [h6, hr]
  | fastPath a h6 hr => simp [h6, hr, writeResult_ne_noOpRequested]
  | readWaits n h1 h6 hr => simp [hr, Nat.ne_zero_of_lt h1]
  | readFails h1 h6 hr => simp [hr, Nat.ne_zero_of_lt h1]
  | shortCircuit r h1 h6 he hr => simp [hr, Nat.ne_zero_of_lt h1]
  | updateWaits r n h1 h6 he hr => simp [hr, Nat.ne_zero_of_lt h1]
  | update r a h1 h6 he hr => simp [hr, Nat.ne_zero_of_lt h1, writeResult_ne_noOpRequested]

/-- A CMRG that ends with `TransportFailure` has an override, and one of its calls failed (42_merge_engine.md R107, R108,
R111). -/
theorem CmrgOutcome.failed_call (C : CmrgOutcome d o c t evs) (h : t.result = some .transportFailure) :
    1 ≤ o.count ∧ ∃ e ∈ evs, e.outcome = .fail := by
  cases C with
  | noOp h0 hr => simp [hr] at h
  | writeWaits n h6 hr => simp [hr] at h
  | fastPath a h6 hr => exact ⟨by omega, by simpa [hr, writeResult_eq_transportFailure_iff] using h⟩
  | readWaits n h1 h6 hr => simp [hr] at h
  | readFails h1 h6 hr => exact ⟨h1, by simp⟩
  | shortCircuit r h1 h6 he hr => simp [hr] at h
  | updateWaits r n h1 h6 he hr => simp [hr] at h
  | update r a h1 h6 he hr => exact ⟨h1, by simpa [hr, writeResult_eq_transportFailure_iff] using h⟩

end

/-- A codec operation ends with no failure kind (40_temperature_codec.md R89, 41_configuration_codec.md R99). -/
theorem exec_codec_result_ne_failure {i : Instr} {s t : State} (hi : ∀ d o, i ≠ .cmrg d o) (hp : s.phase = .idle)
    (hf : s.facade = none) (h : exec i s = .next t) :
    t.result ≠ some .noOpRequested ∧ t.result ≠ some .transportFailure := by
  obtain ⟨u, hu, hok, -⟩ := codecOperationsTouchNothingElse i s hp hf hi
  cases hu.symm.trans h
  constructor <;> intro hr <;> simp [State.statusPort, hr, Result.status] at hok

/-- Settles O41: only CMRG fails, and each of its outcomes names its failure and its events. -/
theorem operationsFailOnlyAsListed : Obligations.OperationsFailOnlyAsListed := by
  intro i s t hp hf h
  by_cases hi : ∃ d o, i = .cmrg d o
  · obtain ⟨d, o, rfl⟩ := hi
    obtain ⟨u, evs, hu, hh, C⟩ := cmrg_outcome d o hp hf
    cases hu.symm.trans h
    refine ⟨fun hr => ⟨d, o, rfl, C.noOpRequested_iff.1 hr⟩, ?_, fun hr => ?_⟩
    · rintro _ _ ⟨⟩ h0
      exact C.noOpRequested_iff.2 h0
    · obtain ⟨h1, e, he, hfail⟩ := C.failed_call hr
      exact ⟨⟨d, o, rfl, h1⟩, evs, e, hh, he, hfail⟩
  · have hne (d : DevAddr) (o : Overrides) : i ≠ .cmrg d o := fun e => hi ⟨d, o, e⟩
    obtain ⟨hno, htr⟩ := exec_codec_result_ne_failure hne hp hf h
    exact ⟨fun hr => absurd hr hno, fun d o e => absurd e (hne d o), fun hr => absurd hr htr⟩

end Sys2Proof.Machine
end

section
/-! PROOFS. No operation is fatal (60_exceptions.md R147), and what a step refuses: O55. -/

namespace Sys2Proof.Machine

theorem whenReady_ne_refused (s go : State) (r : Refusal) : s.whenReady go ≠ .refused r := by
  unfold State.whenReady
  split <;> simp

/-- Every operation of CORE answers or waits. -/
theorem exec_ne_refused (i : Instr) (s : State) (r : Refusal) : exec i s ≠ .refused r := by
  cases i <;> exact whenReady_ne_refused s _ r

/-- Of the Facade's operations SETADDR alone is refused, for its address (43_facade_boundary.md R132). -/
theorem execPseudo_refused {p : Pseudo} {s : State} {r : Refusal} (h : execPseudo p s = .refused r) :
    ∃ a, p = .setAddr a ∧ a ∉ Config.devAddrSet ∧ r = .devaddrOutsideSet := by
  cases p with
  | setAddr a =>
    cases hr : s.ready with
    | false => simp [execPseudo, hr] at h
    | true =>
      obtain ⟨hp, hf⟩ := (State.ready_iff s).1 hr
      obtain ⟨hmem, hout⟩ := setAddrReaddresses a s hp hf
      by_cases ha : a ∈ Config.devAddrSet
      · cases (hmem ha).symm.trans h
      · cases (hout ha).symm.trans h
        exact ⟨a, rfl, ha, rfl⟩
  | _ => exact absurd h (whenReady_ne_refused s _ r)

/-- The owner's change of DEVADDR is SETADDR on an idle block (log 10). -/
theorem step_mutateDevaddr_ready {s : State} {a : DevAddr} {rest : List Input} (hr : s.ready = true)
    (hi : s.inputs = .mutateDevaddr a :: rest) : step s = execPseudo (.setAddr a) { s with inputs := rest } := by
  simp [step, fetch, hi, hr]

/-- The owner's change of DEVADDR is refused while an operation is in flight (70_reset_and_hazards.md R163). -/
theorem step_mutateDevaddr_busy {s : State} {a : DevAddr} {rest : List Input} (hr : s.ready = false)
    (hi : s.inputs = .mutateDevaddr a :: rest) : step s = .refused .devaddrChangedInFlight := by
  simp [step, fetch, hi, hr]

/-- Settles O55: by what is presented; an operation that is taken up is refused for SETADDR's address alone. -/
theorem stepRefusesOnlyWhatIsReserved : Obligations.StepRefusesOnlyWhatIsReserved := by
  intro s r h
  cases hi : s.inputs with
  | nil => simp [step, fetch, hi] at h
  | cons x rest =>
    cases x with
    | quiet => simp [step, fetch, hi] at h
    | reset => simp [step, fetch, hi] at h
    | deviceChange a v => simp [step, fetch, hi] at h
    | command w =>
      cases hr : s.ready with
      | false => simp [step, fetch, hi, hr] at h
      | true =>
        obtain ⟨hp, hf⟩ := (State.ready_iff s).1 hr
        cases hw : decode w with
        | ok i => exact absurd ((step_command_ready hr hi hw).symm.trans h) (exec_ne_refused i _ r)
        | error e =>
          cases (step_command_refused hr hi hw).symm.trans h
          exact .inl ⟨w, rest, e, rfl, hp, hf, hw, rfl⟩
    | pseudo p =>
      cases hr : s.ready with
      | false => simp [step, fetch, hi, hr] at h
      | true =>
        obtain ⟨hp, hf⟩ := (State.ready_iff s).1 hr
        obtain ⟨a, rfl, ha, rfl⟩ := execPseudo_refused ((step_pseudo_ready hr hi).symm.trans h)
        exact .inr (.inl ⟨a, rest, .inl rfl, hp, hf, ha, rfl⟩)
    | mutateDevaddr a =>
      cases hr : s.ready with
      | false =>
        cases (step_mutateDevaddr_busy hr hi).symm.trans h
        exact .inr (.inr ⟨a, rest, rfl, (State.not_ready_iff s).1 hr, rfl⟩)
      | true =>
        obtain ⟨hp, hf⟩ := (State.ready_iff s).1 hr
        obtain ⟨_, ⟨⟩, ha, rfl⟩ := execPseudo_refused ((step_mutateDevaddr_ready hr hi).symm.trans h)
        exact .inr (.inl ⟨a, rest, .inr rfl, hp, hf, ha, rfl⟩)

end Sys2Proof.Machine
end

section
/-! PROOFS. A reset, what waits while an operation is in flight, and the owner's change of DEVADDR
(70_reset_and_hazards.md): O24, O51, O52. -/

namespace Sys2Proof.Machine

/-! ### The operation in flight takes up none of the inputs -/

theorem readAnswered_inputs (a : Answer) (s : State) : (readAnswered a s).inputs = s.inputs := by
  cases a with
  | fail => simp [readAnswered]
  | ok r =>
    by_cases h : cenc (s.ovr.merge (cdec r)) = cenc (cdec r)
    · simp [readAnswered_unchanged h]
    · simp [readAnswered_changed h]

theorem respond_inputs {s t : State} {a : Answer} (h : s.respond = some (a, t)) : t.inputs = s.inputs := by
  obtain ⟨c, -, -, as, fs, m, rfl, -⟩ := State.respond_spec h
  rfl

theorem engine_inputs (s : State) : (engine s).inputs = s.inputs := by
  cases hr : s.respond with
  | none => rw [engine_waits hr]
  | some y =>
    obtain ⟨a, t⟩ := y
    have ht : t.inputs = s.inputs := respond_inputs hr
    cases hp : s.phase with
    | idle => rw [engine_idle hp]
    | rdWait => rw [engine_read hp hr, readAnswered_inputs, ht]
    | wrWait => rw [engine_write hp hr, writeAnswered_eq_complete, State.complete_inputs, ht]

theorem runEngine_inputs (s : State) : (runEngine s).inputs = s.inputs := by
  rw [runEngine, engine_inputs, engine_inputs]

theorem facadeFinish_inputs (p : Pseudo) (a : Answer) (s : State) : (facadeFinish p a s).inputs = s.inputs := by
  unfold facadeFinish
  split <;> simp

theorem facadeRun_inputs (s : State) : (facadeRun s).inputs = s.inputs := by
  cases hr : s.respond with
  | none => rw [facadeRun_waits hr]
  | some y =>
    obtain ⟨a, t⟩ := y
    cases hf : s.facade with
    | none => rw [facadeRun_idle hf]
    | some p =>
      have ht : t.inputs = s.inputs := respond_inputs hr
      rw [facadeRun_answered hf hr, facadeFinish_inputs, ← ht]

theorem await_inputs (s : State) : (await s).inputs = s.inputs := by
  unfold await goOn
  split
  next => rw [facadeRun_inputs]; simp
  next => rw [runEngine_inputs]; simp

/-! ### What is presented to a busy block -/

theorem exec_busy (i : Instr) {s : State} (hr : s.ready = false) : exec i s = .next s := by
  cases i <;> exact State.whenReady_busy s _ hr

/-- SETADDR waits as every Facade operation does (log 18). -/
theorem execPseudo_busy (p : Pseudo) {s : State} (hr : s.ready = false) : execPseudo p s = .next s := by
  cases p with
  | setAddr a => simp [execPseudo, hr]
  | _ => exact State.whenReady_busy s _ hr

/-- Settles O24: nothing else is taken up, so the step is the operation in flight going on. -/
theorem commandWaitsWhileBusy : Obligations.CommandWaitsWhileBusy := by
  intro s hbusy
  have hr : s.ready = false := (State.not_ready_iff s).2 hbusy
  refine ⟨fun i => exec_busy i hr, fun p => execPseudo_busy p hr, fun w p rest hi => ?_⟩
  have hn : Safety.nothingElsePresented s = true := by
    obtain hi | hi := hi <;> simp [Safety.nothingElsePresented, hi]
  exact ⟨await s, step_busy hn hr, await_inputs s⟩

/-- Settles O51: refused in flight, and SETADDR of a member of the set on an idle block. -/
theorem devaddrMutationInFlightRefused : Obligations.DevaddrMutationInFlightRefused := by
  intro a s rest hi
  constructor
  · intro hbusy
    exact step_mutateDevaddr_busy ((State.not_ready_iff s).2 hbusy) hi
  · intro hp hf ha
    obtain ⟨hmem, -⟩ := setAddrReaddresses a { s with inputs := rest } hp hf
    rw [step_mutateDevaddr_ready ((State.ready_iff s).2 ⟨hp, hf⟩) hi, hmem ha]

/-! ### Reset -/

/-- A reset is taken up whatever is in flight (70_reset_and_hazards.md R160). -/
theorem step_reset {s : State} {rest : List Input} (hi : s.inputs = .reset :: rest) :
    step s = .next (State.resetBlock { s with inputs := rest }) := by
  simp [step, fetch, hi]

/-- Settles O52: by the fields that the reset writes, which leave the block idle and so able to run a TDEC. -/
theorem resetAbandonsOperation : Obligations.ResetAbandonsOperation := by
  intro s rest hi
  have runs (r : Register) : ∃ u, exec (.tdec r) (State.resetBlock { s with inputs := rest }) = .next u ∧
      u.result = some (.float (tdec r)) :=
    ⟨_, whenReady_complete (s := State.resetBlock { s with inputs := rest }) rfl rfl (.float (tdec r)), rfl⟩
  exact ⟨_, step_reset hi, rfl, rfl, rfl, rfl, rfl, rfl, rfl, rfl, rfl, rfl, rfl, rfl, runs⟩

end Sys2Proof.Machine
end
